-- ==== Sys2Proof/Word.lean ====
section
/-! DEFINITION. The widths of the part: bytes, stamps, addresses and the numbers of its numbered things
(00_scope.md section 0.6). -/

namespace Sys2Proof

/-- One byte of a frame. -/
abbrev Byte := BitVec 8

/-- A timebase value, in microseconds modulo 2^32 (R2). -/
abbrev Stamp := BitVec 32

/-- A station address: 12 bits, 4095 the broadcast address (0.4). -/
abbrev Address := BitVec 12

/-- A version of a steering entry: 16 bits, wrapping (R7). -/
abbrev Version := BitVec 16

/-- A frame record number, 0 to 1023 (R53). -/
abbrev RecordNo := Fin 1024

/-- A cell number, 0 to 2047 (R50). -/
abbrev CellNo := Fin 2048

/-- A deque number, 0 to 31 (0.5.2). -/
abbrev DequeNo := Fin 32

/-- A general deque number, 0 to 27: what a steering entry may name as a target (R14). -/
abbrev GeneralNo := Fin 28

/-- A keyed entry's index, 0 to 511 (1.1.1). -/
abbrev EntryNo := Fin 512

/-- An exception slot's number, 0 to 15 (R170). -/
abbrev SlotNo := Fin 16

end Sys2Proof
end

