-- ==== Sys2Proof/Config.lean ====
section
/-! DEFINITION. What the manual leaves open: free values, constants with no body. No proof can see what they are,
so a claim that is proved holds whatever they are. -/

namespace Sys2Proof

/-- The two malformations at which the manual does not say how far the parse has read (R124). -/
inductive ParseEnd
  /-- The head of a seventeenth order. -/
  | seventeenth
  /-- An order head or operand that runs past the last stored byte. -/
  | overrun
  deriving DecidableEq, Repr

/-- FREE VALUE (entry 8). Where a damaged key makes several VALID entries match one triple, which of them the search
finds (R10 says a damaged key may match a triple it was not written for). Reduced modulo the number of matches. -/
opaque Config.searchPick : List EntryNo → Nat

/-- FREE VALUE (entry 9). How many bytes the parse has read, when it meets the malformation, behind the point at which
arithmetic on the bytes before it shows it (R124: "the parse reads no cell after the point at which it ends"; R193 for
the two bytes of a head). Only consulted when a cell that holds one of those bytes has an error. -/
opaque Config.parseReadsOn : ParseEnd → Nat

/-- FREE VALUE (entry 10). How many bytes of a frame have left on the line when a link loss or an order reset cuts it
(R95, R100), above the least that its cell reads show; drawn afresh for each cut from the counter `freeDraws` of the
state. -/
opaque Config.cutLength : Nat → Nat

/-- FREE VALUE (entry 3). Which of the things the block can do by itself it does next (0.5.7: of events that fall
together either may be taken first); drawn afresh from the counter `freeDraws` of the state. -/
opaque Config.nextWork : Nat → Nat

end Sys2Proof
end

