-- ==== Sys2Proof/Syntax.lean ====
section
/-! DEFINITION. The commands of the block: one constructor for each row of spec/opcode_table.json, with the data types
their operands need. -/

namespace Sys2Proof

/-- The three link ports (0.5.1). -/
inductive Port
  | E | W | B
  deriving DecidableEq, Repr

/-- The end at which a steering entry places a frame; also the end of an arrival (R31). -/
inductive Insertion
  | tail | head
  deriving DecidableEq, Repr

/-- The hop rule of a steering entry (R76). -/
inductive HopRule
  | decrement | preserve
  deriving DecidableEq, Repr

/-- The action of a steering entry. The target list is present when the action is FORWARD and absent otherwise (R4). -/
inductive Action
  | forward (targets : List GeneralNo)
  | discard
  | discardReport
  deriving DecidableEq, Repr

/-- Action, targets, insertion and hop rule (1.1.1). -/
structure Disposition where
  action : Action
  insertion : Insertion
  hopRule : HopRule
  deriving DecidableEq, Repr

/-- Destination, class set (bit c for class c) and port set (bit 0 E, bit 1 W, bit 2 B) (1.1.1, 11.4). -/
structure Key where
  dest : Address
  classes : BitVec 8
  ports : BitVec 3
  deriving DecidableEq, Repr

/-- The content of a keyed entry: key and disposition (1.1.1). -/
structure Content where
  key : Key
  disposition : Disposition
  deriving DecidableEq, Repr

/-- What the storage of a keyed entry's content holds (R10): a content that passes its parity check, or bits that fail
it, which read as the 11 given bytes and may hold codings that name nothing (R194). -/
inductive Stored
  | sound (c : Content)
  | damaged (bytes : Vector Byte 11)
  deriving DecidableEq, Repr

/-- What a checked read of a cell finds wrong with it (R50). -/
inductive CellFault
  | corrected | uncorrected
  deriving DecidableEq, Repr

/-- Damage that has struck the storage by the time of a command that makes a checked read (entry 7). -/
inductive Upset
  | entry (index : EntryNo) (now : Stored)
  | cell (cell : CellNo) (fault : CellFault)
  deriving DecidableEq, Repr

/-- An order as the parse frames it: its code and its operand bytes (R124). -/
structure Order where
  code : Byte
  operands : List Byte
  deriving DecidableEq, Repr

/-- The commands. The order commands carry the operand bytes as received, so that an operand length that is wrong for
the order can be expressed (R143 step 2). -/
inductive Instr
  /-- Power-on or the reset pin; `straps` are the levels of the twelve strap pins when it ends (R1). -/
  | hardReset (straps : BitVec 12)
  | signalDetected (p : Port)
  | lossOfSignal (p : Port)
  | alignmentAchieved (p : Port)
  | lossOfAlignment (p : Port)
  | endOfQuietPeriod (p : Port)
  | startOfFrame (p : Port)
  | dataByte (p : Port) (b : Byte)
  | invalidCodeGroup (p : Port)
  | endOfFrame (p : Port) (upsets : List Upset)
  | takeAttempt (p : Port)
  | transmissionComplete (p : Port)
  | cellReadCorrected (p : Port) (c : CellNo)
  | poisonedEnd (p : Port) (c : CellNo)
  | drainRemoval (d : DequeNo)
  | engineTake (upsets : List Upset)
  | replyBuild
  | leaseExpiry
  | retryTimerExpiry
  | noticeDeliveryAttempt
  | noticePlacement
  | identify (ops : List Byte)
  | claim (ops : List Byte)
  | renew (ops : List Byte)
  | release (ops : List Byte)
  | setStation (ops : List Byte)
  | readEntry (ops : List Byte) (upsets : List Upset)
  | writeEntry (ops : List Byte) (upsets : List Upset)
  | freeEntry (ops : List Byte)
  | findEntry (ops : List Byte) (upsets : List Upset)
  | readDefault (ops : List Byte)
  | writeDefault (ops : List Byte)
  | readDeque (ops : List Byte)
  | setDeque (ops : List Byte)
  | openDeque (ops : List Byte)
  | pauseDeque (ops : List Byte)
  | resumeDeque (ops : List Byte)
  | drainDeque (ops : List Byte)
  | readPort (ops : List Byte)
  | holdPort (ops : List Byte)
  | unholdPort (ops : List Byte)
  | retrainPort (ops : List Byte)
  | readExceptions (ops : List Byte)
  | ackExceptions (ops : List Byte)
  | setReporting (ops : List Byte)
  | readChecks (ops : List Byte)
  | clearChecks (ops : List Byte)
  | readPool (ops : List Byte)
  | resetTraffic (ops : List Byte)
  | resetFull (ops : List Byte)
  | unknownOrder (code : Byte) (ops : List Byte)
  | idleCodeGroup (p : Port)
  deriving DecidableEq, Repr

end Sys2Proof
end

