-- ==== Sys2Proof/Machine/State.lean ====
section
/-! DEFINITION. The state of the block as plain data: every register, queue, buffer, counter and mode the manual gives
it, the queue of commands waiting, and the state after hard reset. -/

namespace Sys2Proof.Machine

open Sys2Proof

/-- One thing for each of the three ports. -/
structure PerPort (α : Type) where
  e : α
  w : α
  b : α
  deriving DecidableEq, Repr

/-! ## Frames and frame records (R54) -/

/-- The four frame kinds (11.1). -/
inductive Kind
  | data | order | reply | notice
  deriving DecidableEq, Repr

/-- The header fields of a frame record (R54). -/
structure Header where
  dest : Address
  src : Address
  kind : Kind
  stop : Bool
  cls : BitVec 3
  hop : BitVec 4
  seq : Byte
  deriving DecidableEq, Repr

/-- The arrival port of a frame: a port, or INTERNAL for a frame the bridge built (0.5.1). -/
inductive Origin
  | port (p : Port)
  | internal
  deriving DecidableEq, Repr

/-- A RECEIVING frame record: count 0, no header yet (R54, R55). -/
structure ReceivingFrame where
  cells : List CellNo
  port : Port
  stamp : Stamp
  deriving DecidableEq, Repr

/-- A HELD frame record (R54). -/
structure HeldFrame where
  cells : List CellNo
  length : Nat
  origin : Origin
  header : Header
  stamp : Stamp
  count : Nat
  deriving DecidableEq, Repr

/-- A frame record in one of its three states, with the fields that state has (R54, R55). -/
inductive FrameRecord
  | free
  | receiving (f : ReceivingFrame)
  | held (f : HeldFrame)
  deriving DecidableEq, Repr

/-- What the next checked read of a cell finds (R50, R93, R94; entry 7). -/
inductive Ecc
  | sound | corrected | uncorrected
  deriving DecidableEq, Repr

/-! ## Steering table (1.1) -/

/-- State and content of a keyed entry: a FREE entry has no content (R3). -/
inductive EntryBody
  | free
  | valid (s : Stored)
  | suspect (s : Stored)
  deriving DecidableEq, Repr

structure Entry where
  version : Version
  body : EntryBody
  deriving DecidableEq, Repr

/-- A default entry: no index, key, state or parity (R5). -/
structure DefaultEntry where
  version : Version
  disposition : Disposition
  deriving DecidableEq, Repr

/-- The entry a lookup used (R9). -/
inductive EntryUsed
  | keyed (i : EntryNo)
  | default (p : Port)
  deriving DecidableEq, Repr

/-- The result of a lookup: a copy (R9). -/
structure LookupResult where
  used : EntryUsed
  disposition : Disposition
  deriving DecidableEq, Repr

/-! ## Deques (R24) -/

/-- The binding of a deque; `unbound` is NONE (R24). -/
inductive Binding
  | unbound | port (p : Port) | mgmt
  deriving DecidableEq, Repr

inductive Policy
  | refuse | shedOldest | shedNewest
  deriving DecidableEq, Repr

/-- The target of a drain (R44). -/
inductive DrainTarget
  | detached | active
  deriving DecidableEq, Repr

/-- The state of a deque; drain target and removed count are present only while DRAINING (R24, R26). -/
inductive DequeState
  | detached | active | paused
  | draining (target : DrainTarget) (removed : Nat)
  deriving DecidableEq, Repr

structure DequeConfig where
  binding : Binding
  priority : Option (Fin 9)
  limit : Byte
  policy : Policy
  dwell : BitVec 16
  retain : Option Bool
  deriving DecidableEq, Repr

structure Deque where
  config : DequeConfig
  state : DequeState
  entries : List RecordNo
  deriving DecidableEq, Repr

/-! ## Ports (R68, R85, R91, R102) -/

/-- The link state, with the run each state counts (R102). The group that makes the idle run 32 is alignment achieved,
and the one that makes the invalid run 4 is loss of alignment (R103), so neither value rests here (entry 14). -/
inductive LinkState
  | down
  | sync (idleRun : Nat)
  | up (invalidRun : Nat)
  deriving DecidableEq, Repr

/-- What a RECEIVING receiver holds (R109). -/
structure Reception where
  record : RecordNo
  lineBytes : Nat
  damaged : Bool
  window : List Byte
  deriving DecidableEq, Repr

inductive Receiver
  | idle
  | receiving (r : Reception)
  | discarding
  deriving DecidableEq, Repr

/-- What a group of the line is to the receiver (R109). An idle group is nothing to it. -/
inductive LineGroup
  | start | data (b : Byte) | invalid | finish
  deriving DecidableEq, Repr

/-- While SENDING: the frame and its source deque (R91), and the cells of its payload not yet read, in list order
(R92). -/
inductive Transmitter
  | idle
  | sending (frame : RecordNo) (source : DequeNo) (unread : List CellNo)
  deriving DecidableEq, Repr

/-- The path admission chooses for a frame (R69). -/
inductive Path
  | own | broadcastOrder | steered
  deriving DecidableEq, Repr

/-- The steps of an admission after its hand-over (R70 to R80). -/
inductive AdmitStep
  | append | misdirect | hopCheck | lookup | act | place | release
  deriving DecidableEq, Repr

/-- What an ADMITTING unit holds (R68), and the step it takes next. -/
structure Admitting where
  frame : RecordNo
  stationRead : Address
  path : Path
  result : Option LookupResult
  nextTarget : Option Nat
  next : AdmitStep
  deriving DecidableEq, Repr

inductive AdmissionUnit
  | idle
  | admitting (a : Admitting)
  deriving DecidableEq, Repr

/-- How a frame on the transmit pair ended: with its CRC, with a complemented CRC, or with the line stopping. -/
inductive LineEnding
  | complete | poisoned | cut
  deriving DecidableEq, Repr

/-- The bytes a transmitter has put on its line for one frame, CRC bytes included (R92, R94; entry 13). -/
structure LineFrame where
  bytes : List Byte
  ending : LineEnding
  deriving DecidableEq, Repr

/-- A port. `lineOut` and `lineWaits` are the model's own: the last frame that ended on the transmit pair, and the
groups of the receive pair that the receiver has still to take, the first of which is, or has come behind, an end of
frame that waits for the port's admission unit (R68; entry 25). -/
structure PortState where
  link : LinkState
  quietUntil : Option Stamp
  signal : Bool
  held : Bool
  receiver : Receiver
  transmitter : Transmitter
  markers : Vector GeneralNo 8
  admission : AdmissionUnit
  lineOut : Option LineFrame
  lineWaits : List LineGroup
  deriving DecidableEq, Repr

/-! ## Management engine (R121, R131) -/

inductive FrameStatus
  | executed | malformed | abandoned | replayLost
  deriving DecidableEq, Repr

/-- The result statuses (R144, R145). -/
inductive Status
  | ok | skipped | noRoom | unknownOrder | badLength | notPermitted | notHolder | badIndex | badOperand | fixedDeque
  | wrongState | versionMismatch | conflict | claimedByOther
  deriving DecidableEq, Repr

structure Result where
  code : Byte
  status : Status
  data : List Byte
  deriving DecidableEq, Repr

inductive ListEnd
  | stop | reset | noRoom
  deriving DecidableEq, Repr

inductive Role
  | own | broadcast
  deriving DecidableEq, Repr

/-- The engine's copy of the order frame's header (R121). -/
structure FrameCopy where
  src : Address
  dest : Address
  cls : BitVec 3
  kind : Kind
  seq : Byte
  stop : Bool
  port : Port
  deriving DecidableEq, Repr

/-- The execution fields of the engine (R121). `position` counts from 1. -/
structure Job where
  orderFrame : Option RecordNo
  copy : FrameCopy
  role : Role
  orders : List Order
  position : Nat
  results : List Result
  dataUsed : Nat
  listEnd : Option ListEnd
  deriving DecidableEq, Repr

/-- The step of R130 that a REPLYING engine takes next, with the reply it has built, if it has built one. -/
inductive ReplyStep
  | build
  | memory (reply : Option RecordNo)
  | placement (reply : RecordNo)
  | release (reply : Option RecordNo)
  deriving DecidableEq, Repr

inductive Engine
  | idle
  | executing (j : Job)
  | drainWait (j : Job)
  | replying (j : Job) (status : FrameStatus) (next : ReplyStep)
  deriving DecidableEq, Repr

/-- The claim record while a holder exists (R131). Reply memory is a record number. -/
structure Claim where
  holder : Address
  expiry : Stamp
  port : Port
  lastSeq : Option Byte
  replyMemory : Option RecordNo
  deriving DecidableEq, Repr

/-! ## Exception unit (R168 to R170) -/

inductive ExcClass
  | format | traffic | resource | management | link | check
  deriving DecidableEq, Repr

/-- The exception codes (R169). -/
inductive ExcCode
  | runt | badCrc | badHeader | lengthMismatch | overlength | truncated
  | expiredHop | noRoute | misdirected | reflected | dequeFull | dequeClosed | shed | dwellExpired | linkAbort
  | lostByCheck
  | noRecord | noCell | noticeUndelivered | replyUndelivered
  | intakeFull | orderMalformed | orderAbandoned | claimTaken | claimExpired
  | linkUp | linkDown
  | cellCorrected | cellUncorrected | tableParity
  deriving DecidableEq, Repr

/-- The frame summary of a record (R168). -/
structure Summary where
  dest : Address
  src : Address
  cls : BitVec 3
  kind : Kind
  deriving DecidableEq, Repr

inductive RecordMark
  | pending | notified
  deriving DecidableEq, Repr

structure ExceptionRecord where
  seq : Byte
  code : ExcCode
  stamp : Stamp
  port : Option Port
  deque : Option DequeNo
  entry : Option EntryNo
  summary : Option Summary
  cell : Option CellNo
  chain : Option Byte
  mark : RecordMark
  deriving DecidableEq, Repr

/-- The reporting mask: a set of the classes other than CHECK (R170). -/
structure ClassMask where
  format : Bool
  traffic : Bool
  resource : Bool
  management : Bool
  link : Bool
  deriving DecidableEq, Repr

/-- The notice in building (R170, R176). -/
structure Building where
  record : RecordNo
  dest : Address
  seqs : List Byte
  deriving DecidableEq, Repr

/-- The exception unit. `retry` is the retry stamp while the timer is RUNNING, and absent while it is STOPPED. -/
structure ExcUnit where
  slots : Vector (Option ExceptionRecord) 16
  creation : List SlotNo
  counter : Byte
  mask : ClassMask
  notices : Bool
  retry : Option Stamp
  building : Option Building
  deriving DecidableEq, Repr

/-! ## Check monitor (R185) -/

/-- Location kind and value together (R185). -/
inductive Location
  | ce (c : CellNo)
  | ue (c : CellNo)
  | tp (i : EntryNo)
  deriving DecidableEq, Repr

structure CheckMonitor where
  ce : Bool
  ue : Bool
  tp : Bool
  location : Option Location
  level : Fin 4
  deriving DecidableEq, Repr

/-! ## The whole block -/

/-- The state of the MD-428. The last three fields are the model's own: the events the part owes, the count of free
values drawn, and the queue of commands waiting. -/
@[ext]
structure State where
  timebase : Stamp
  straps : BitVec 12
  station : Address
  entries : Vector Entry 512
  defaults : PerPort DefaultEntry
  deques : Vector Deque 32
  mem : List Host.Cell
  ecc : Vector Ecc 2048
  freeCells : List CellNo
  freeRecords : List RecordNo
  records : Vector FrameRecord 1024
  ports : PerPort PortState
  engine : Engine
  claim : Option Claim
  exc : ExcUnit
  check : CheckMonitor
  follow : List Instr
  freeDraws : Nat
  pending : List Instr
  deriving DecidableEq, Repr

/-- No event of this block stops it with a fault: a fault of the part is a record in its exception table. -/
inductive Fault
  deriving DecidableEq, Repr

/-- The reasons a command has no meaning here. -/
inductive Refusal
  /-- Raised by `exec` alone, for a command of the table that has no meaning yet (safe). No command is in this case. -/
  | notModelled (mnemonic : String)
  deriving DecidableEq, Repr

/-! ## Reset values -/

/-- Deques 0 to 31 after hard reset (R28, R48). -/
def resetDequeConfig (d : DequeNo) : DequeConfig × DequeState :=
  match d.val with
  | 0 => (⟨.port .W, some 0, 64, .refuse, 0, some true⟩, .active)
  | 1 => (⟨.port .E, some 0, 64, .refuse, 0, some true⟩, .active)
  | 28 => (⟨.mgmt, none, 4, .refuse, 0, none⟩, .active)
  | 29 => (⟨.port .E, some 8, 16, .refuse, 0, some true⟩, .active)
  | 30 => (⟨.port .W, some 8, 16, .refuse, 0, some true⟩, .active)
  | 31 => (⟨.port .B, some 8, 16, .refuse, 0, some true⟩, .active)
  | _ => (⟨.unbound, some 0, 16, .refuse, 0, some false⟩, .detached)

def resetDeque (d : DequeNo) : Deque :=
  ⟨(resetDequeConfig d).1, (resetDequeConfig d).2, []⟩

/-- All deques after hard reset and RESET-FULL (R48). -/
def resetDeques : Vector Deque 32 := Vector.ofFn resetDeque

/-- All keyed entries after hard reset and RESET-FULL (R22). -/
def resetEntries : Vector Entry 512 := Vector.replicate 512 ⟨0, .free⟩

/-- The default entries after hard reset and RESET-FULL (R5). -/
def resetDefaults : PerPort DefaultEntry where
  e := ⟨0, ⟨.forward [0], .tail, .decrement⟩⟩
  w := ⟨0, ⟨.forward [1], .tail, .decrement⟩⟩
  b := ⟨0, ⟨.discard, .tail, .decrement⟩⟩

/-- A port after hard reset (R102, R120, R85, R68). -/
def resetPort : PortState where
  link := .down
  quietUntil := none
  signal := false
  held := false
  receiver := .idle
  transmitter := .idle
  markers := Vector.replicate 8 27
  admission := .idle
  lineOut := none
  lineWaits := []

/-- The exception unit after hard reset and RESET-FULL (R183). -/
def resetExc : ExcUnit where
  slots := Vector.replicate 16 none
  creation := []
  counter := 0
  mask := ⟨false, false, true, true, true⟩
  notices := true
  retry := none
  building := none

/-- The check monitor after hard reset and RESET-FULL (R185). -/
def resetCheck : CheckMonitor := ⟨false, false, false, none, 1⟩

/-- The free queues after every kind of reset (R52, R53). -/
def allCells : List CellNo := List.finRange 2048

def allRecords : List RecordNo := List.finRange 1024

/-- The machine right after hard reset, with the strap pins at 0 (DESIGN CHOICE, entry 11). -/
def State.reset : State where
  timebase := 0
  straps := 0
  station := 0
  entries := resetEntries
  defaults := resetDefaults
  deques := resetDeques
  mem := []
  ecc := Vector.replicate 2048 .sound
  freeCells := allCells
  freeRecords := allRecords
  records := Vector.replicate 1024 .free
  ports := ⟨resetPort, resetPort, resetPort⟩
  engine := .idle
  claim := none
  exc := resetExc
  check := resetCheck
  follow := []
  freeDraws := 0
  pending := []

end Sys2Proof.Machine
end

