-- ==== Sys2Proof/Machine/Operands.lean ====
section
/-! DEFINITION. The wire formats of chapter 11: frame headers and the CRC, order lists, operand codings, result data,
replies and exception records. Everything here is a function of bytes alone. -/

namespace Sys2Proof

/-! ## Multi-byte fields: most significant byte first (chapter 11) -/

def be16 (x : BitVec 16) : List Byte := [x.extractLsb' 8 8, x.extractLsb' 0 8]

def be32 (x : BitVec 32) : List Byte :=
  [x.extractLsb' 24 8, x.extractLsb' 16 8, x.extractLsb' 8 8, x.extractLsb' 0 8]

/-- Two bytes as a 16-bit field. -/
def half (hi lo : Byte) : BitVec 16 := hi ++ lo

/-- A 12-bit address in a 2-byte field. -/
def addressBytes (a : Address) : List Byte := be16 (a.setWidth 16)

/-- A 2-byte field as an address, if it is one of 0 to 4095. -/
def addressField (hi lo : Byte) : Option Address :=
  if (half hi lo).toNat < 4096 then some ((half hi lo).setWidth 12) else none

/-! ## Small codings (11.4) -/

def Port.index : Port → Nat
  | .E => 0
  | .W => 1
  | .B => 2

def Port.code : Port → Byte
  | .E => 1
  | .W => 2
  | .B => 3

def portOperand (b : Byte) : Option Port :=
  if b = 1 then some .E else if b = 2 then some .W else if b = 3 then some .B else none

def dequeOperand (b : Byte) : Option DequeNo :=
  if h : b.toNat < 32 then some ⟨b.toNat, h⟩ else none

def generalOperand (b : Byte) : Option GeneralNo :=
  if h : b.toNat < 28 then some ⟨b.toNat, h⟩ else none

def entryOperand (hi lo : Byte) : Option EntryNo :=
  if h : (half hi lo).toNat < 512 then some ⟨(half hi lo).toNat, h⟩ else none

def boolOperand (b : Byte) : Option Bool :=
  if b = 0 then some false else if b = 1 then some true else none

def boolByte (b : Bool) : Byte := if b then 1 else 0

def insertionOperand (b : Byte) : Option Insertion :=
  if b = 0 then some .tail else if b = 1 then some .head else none

def Insertion.code : Insertion → Byte
  | .tail => 0
  | .head => 1

def hopRuleOperand (b : Byte) : Option HopRule :=
  if b = 0 then some .decrement else if b = 1 then some .preserve else none

def HopRule.code : HopRule → Byte
  | .decrement => 0
  | .preserve => 1

/-- A general deque as a deque. -/
def general (g : GeneralNo) : DequeNo := ⟨g.val, by omega⟩

/-! ## Dispositions and contents (11.4, R14, R194) -/

/-- All present, or nothing. -/
def allSome {α : Type} : List (Option α) → Option (List α)
  | [] => some []
  | none :: _ => none
  | some x :: rest => (allSome rest).map (x :: ·)

/-- The target list: at most 3, each 0 to 27, none twice, unused bytes 0xFF (R194). -/
def targetsOperand (count : Byte) (bytes : List Byte) : Option (List GeneralNo) :=
  if 3 < count.toNat then none
  else if (bytes.drop count.toNat).all (· = 0xFF) then
    match allSome ((bytes.take count.toNat).map generalOperand) with
    | some l => if l.Nodup then some l else none
    | none => none
  else none

/-- FORWARD with 1 to 3 targets, or DISCARD or DISCARD_REPORT with none (R14). -/
def actionOperand (action count : Byte) (targetBytes : List Byte) : Option Action :=
  match targetsOperand count targetBytes with
  | none => none
  | some [] => if action = 1 then some .discard else if action = 2 then some .discardReport else none
  | some (t :: ts) => if action = 0 then some (.forward (t :: ts)) else none

def dispositionOperand (action count t0 t1 t2 insertion hop : Byte) : Option Disposition :=
  match actionOperand action count [t0, t1, t2], insertionOperand insertion, hopRuleOperand hop with
  | some a, some i, some h => some ⟨a, i, h⟩
  | _, _, _ => none

/-- Destination at most 4095, class set and port set not empty, port set within E, W, B (R14, R194). -/
def keyOperand (d1 d0 classes ports : Byte) : Option Key :=
  match addressField d1 d0 with
  | none => none
  | some d =>
    if classes = 0 ∨ ports = 0 ∨ 8 ≤ ports.toNat then none else some ⟨d, classes, ports.setWidth 3⟩

def Action.code : Action → Byte
  | .forward _ => 0
  | .discard => 1
  | .discardReport => 2

/-- The target list as present; absent for an action other than FORWARD (R4). -/
def Action.targets : Action → List GeneralNo
  | .forward ts => ts
  | .discard => []
  | .discardReport => []

/-- Count and three target bytes, the unused ones 0xFF (11.4). -/
def targetBytes (ts : List GeneralNo) : List Byte :=
  BitVec.ofNat 8 ts.length :: (ts.map (fun (t : GeneralNo) => BitVec.ofNat 8 t.val) ++ [0xFF, 0xFF, 0xFF]).take 3

def Disposition.bytes (d : Disposition) : List Byte :=
  d.action.code :: targetBytes d.action.targets ++ [d.insertion.code, d.hopRule.code]

def Key.bytes (k : Key) : List Byte := addressBytes k.dest ++ [k.classes, k.ports.setWidth 8]

/-- The 11 content bytes of a keyed entry as a read returns them (R152, R194). -/
def Stored.bytes : Stored → List Byte
  | .sound c => c.key.bytes ++ c.disposition.bytes
  | .damaged b => b.toList

/-- A key matches a triple (R6). -/
def Key.matches (k : Key) (d : Address) (c : BitVec 3) (p : Port) : Bool :=
  k.dest = d && k.classes.getLsbD c.toNat && k.ports.getLsbD p.index

/-- Two keys overlap (R6). -/
def Key.overlaps (k l : Key) : Bool :=
  k.dest = l.dest && k.classes &&& l.classes != 0 && k.ports &&& l.ports != 0

/-- The search compares stored key bits without a parity check (R10). -/
def Stored.matches (s : Stored) (d : Address) (c : BitVec 3) (p : Port) : Bool :=
  match s with
  | .sound x => x.key.matches d c p
  | .damaged b => half b[0] b[1] = d.setWidth 16 && b[2].getLsbD c.toNat && b[3].getLsbD p.index

/-- The conflict check compares stored key bits without a parity check (R10, R16). -/
def Stored.overlaps (s : Stored) (k : Key) : Bool :=
  match s with
  | .sound x => k.overlaps x.key
  | .damaged b => half b[0] b[1] = k.dest.setWidth 16 && b[2] &&& k.classes != 0 && b[3] &&& k.ports.setWidth 8 != 0

/-- An order on the wire: code, operand length, operand bytes (11.2). -/
def Order.bytes (o : Order) : List Byte := o.code :: BitVec.ofNat 8 o.operands.length :: o.operands

/-! ## Times (0.5.3, R131) -/

/-- The expiry stamp of a lease of `n` seconds granted now. -/
def leaseEnd (now : Stamp) (n : Byte) : Stamp := now + BitVec.ofNat 32 (n.toNat * 1000000)

/-- Seconds left on a lease, rounded up (R131); 0 at the expiry stamp itself (entry 16). -/
def secondsLeft (now expiry : Stamp) : Byte := BitVec.ofNat 8 (((expiry - now).toNat + 999999) / 1000000)

end Sys2Proof

namespace Sys2Proof.Machine

open Sys2Proof

/-! ## The frame header (11.1) -/

/-- DATA 0, ORDER 1, REPLY 2, NOTICE 3. -/
def Kind.code : Kind → BitVec 2
  | .data => 0
  | .order => 1
  | .reply => 2
  | .notice => 3

def kindOf (b : BitVec 2) : Kind :=
  if b = 0 then .data else if b = 1 then .order else if b = 2 then .reply else .notice

/-- The 8 header bytes formed from record fields: tag 1010, reserved bits zero (R54, R192). -/
def Header.encode (h : Header) (payloadLength : Nat) : List Byte :=
  let len : BitVec 11 := BitVec.ofNat 11 payloadLength
  [ 0b1010#4 ++ h.dest.extractLsb' 8 4,
    h.dest.extractLsb' 0 8,
    h.src.extractLsb' 4 8,
    h.src.extractLsb' 0 4 ++ (h.kind.code ++ (BitVec.ofBool h.stop ++ 0#1)),
    h.cls ++ (h.hop ++ 0#1),
    h.seq,
    0#5 ++ len.extractLsb' 8 3,
    len.extractLsb' 0 8 ]

/-- The header fields copied from stored bytes 0 to 7 (R59). -/
def Header.decode : List Byte → Option Header
  | b0 :: b1 :: b2 :: b3 :: b4 :: b5 :: _ :: _ :: _ => some
    { dest := b0.extractLsb' 0 4 ++ b1
      src := b2 ++ b3.extractLsb' 4 4
      kind := kindOf (b3.extractLsb' 2 2)
      stop := b3.getLsbD 1
      cls := b4.extractLsb' 5 3
      hop := b4.extractLsb' 1 4
      seq := b5 }
  | _ => none

/-- The header-form check: the tag is 1010 and the seven reserved bits are zero (R114 check 3, R192). -/
def headerFormGood : List Byte → Bool
  | b0 :: _ :: _ :: b3 :: b4 :: _ :: b6 :: _ :: _ =>
    b0.extractLsb' 4 4 = 0b1010#4 && !b3.getLsbD 0 && !b4.getLsbD 0 && b6.extractLsb' 3 5 = 0#5
  | _ => false

/-- The 11-bit payload length field (11.1). -/
def payloadLengthField : List Byte → Nat
  | _ :: _ :: _ :: _ :: _ :: _ :: b6 :: b7 :: _ => (b6.extractLsb' 0 3 ++ b7).toNat
  | _ => 0

/-! ## The CRC (R114) -/

/-- One bit into the register: generator 0x04C11DB7. -/
def crcBit (r : BitVec 32) (bit : Bool) : BitVec 32 :=
  if (r.msb ^^ bit) then (r <<< 1) ^^^ 0x04C11DB7#32 else r <<< 1

/-- One byte, least significant bit first. -/
def crcByte (r : BitVec 32) (b : Byte) : BitVec 32 :=
  [b.getLsbD 0, b.getLsbD 1, b.getLsbD 2, b.getLsbD 3, b.getLsbD 4, b.getLsbD 5, b.getLsbD 6, b.getLsbD 7].foldl crcBit r

/-- The register starts at all ones; the result is bit-reflected and complemented. -/
def crc (bytes : List Byte) : BitVec 32 := ~~~ (bytes.foldl crcByte (BitVec.allOnes 32)).reverse

/-- The CRC is sent least significant byte first (R192). -/
def crcBytes (x : BitVec 32) : List Byte :=
  [x.extractLsb' 0 8, x.extractLsb' 8 8, x.extractLsb' 16 8, x.extractLsb' 24 8]

/-! ## Codings of deque fields (11.4) -/

/-- NONE, E, W or B; MGMT and every other byte are refused in SET-DEQUE (R40). -/
def bindingOperand (b : Byte) : Option Binding :=
  if b = 0 then some .unbound else (portOperand b).map .port

def Binding.code : Binding → Byte
  | .unbound => 0
  | .port p => p.code
  | .mgmt => 4

def priorityOperand (b : Byte) : Option (Fin 9) :=
  if h : b.toNat < 8 then some ⟨b.toNat, by omega⟩ else none

def policyOperand (b : Byte) : Option Policy :=
  if b = 0 then some .refuse else if b = 1 then some .shedOldest else if b = 2 then some .shedNewest else none

def Policy.code : Policy → Byte
  | .refuse => 0
  | .shedOldest => 1
  | .shedNewest => 2

def targetOperand (b : Byte) : Option DrainTarget :=
  if b = 0 then some .detached else if b = 1 then some .active else none

def DequeState.code : DequeState → Byte
  | .detached => 0
  | .active => 1
  | .paused => 2
  | .draining _ _ => 3

/-! ## Order lists (R124, R193) -/

/-- How the framing of a payload ends: a list of orders, or a malformation, with the number of payload bytes needed to
see it and the greatest number the parse can have read when it meets it (entry 9). -/
inductive Framing
  | list (orders : List Order)
  | malformed (why : ParseEnd) (seen : Nat) (readOn : Nat)
  deriving DecidableEq, Repr

/-- Frame up to `room` further orders from bytes that begin at payload byte `at_`. The head of a seventeenth order can
be seen before its bytes are read, and at most its head bytes, one or two as the payload has them, are read (R193). An
order that runs past the last stored byte can be seen from the bytes before the missing ones, and at most the bytes it
has are read. How many of these are read the manual leaves open (entry 9). -/
def frameOrders : Nat → Nat → List Byte → Framing
  | _, _, [] => .list []
  | 0, at_, _ :: rest => .malformed .seventeenth at_ (at_ + 1 + (rest.take 1).length)
  | _ + 1, at_, [_] => .malformed .overrun at_ (at_ + 1)
  | room + 1, at_, code :: len :: rest =>
    if rest.length < len.toNat then .malformed .overrun (at_ + 2) (at_ + 2 + rest.length)
    else
      match frameOrders room (at_ + 2 + len.toNat) (rest.drop len.toNat) with
      | .list os => .list (⟨code, rest.take len.toNat⟩ :: os)
      | .malformed w seen readOn => .malformed w seen readOn

/-- The framing of an ORDER payload: a payload of 0 bytes is a malformation, as is a seventeenth order (R124). -/
def framePayload (payload : List Byte) : Framing :=
  match payload with
  | [] => .malformed .overrun 0 0
  | _ :: _ => frameOrders 16 0 payload

/-! ## Replies (11.2, R193) -/

def FrameStatus.code : FrameStatus → Byte
  | .executed => 0x00
  | .malformed => 0x01
  | .abandoned => 0x02
  | .replayLost => 0x03

def Status.code : Status → Byte
  | .ok => 0x00
  | .skipped => 0x01
  | .noRoom => 0x02
  | .unknownOrder => 0x10
  | .badLength => 0x11
  | .notPermitted => 0x12
  | .notHolder => 0x13
  | .badIndex => 0x14
  | .badOperand => 0x15
  | .fixedDeque => 0x16
  | .wrongState => 0x17
  | .versionMismatch => 0x18
  | .conflict => 0x19
  | .claimedByOther => 0x1A

def Result.bytes (r : Result) : List Byte :=
  r.code :: r.status.code :: (be16 (BitVec.ofNat 16 r.data.length) ++ r.data)

/-- The reply payload: frame status, result count, results (R129, R193). -/
def replyPayload (status : FrameStatus) (results : List Result) : List Byte :=
  status.code :: BitVec.ofNat 8 results.length :: results.flatMap Result.bytes

/-! ## Exception records (11.3) -/

/-- The class of a code (R169). -/
def ExcCode.cls : ExcCode → ExcClass
  | .runt => .format
  | .badCrc => .format
  | .badHeader => .format
  | .lengthMismatch => .format
  | .overlength => .format
  | .truncated => .format
  | .expiredHop => .traffic
  | .noRoute => .traffic
  | .misdirected => .traffic
  | .reflected => .traffic
  | .dequeFull => .traffic
  | .dequeClosed => .traffic
  | .shed => .traffic
  | .dwellExpired => .traffic
  | .linkAbort => .traffic
  | .lostByCheck => .traffic
  | .noRecord => .resource
  | .noCell => .resource
  | .noticeUndelivered => .resource
  | .replyUndelivered => .resource
  | .intakeFull => .management
  | .orderMalformed => .management
  | .orderAbandoned => .management
  | .claimTaken => .management
  | .claimExpired => .management
  | .linkUp => .link
  | .linkDown => .link
  | .cellCorrected => .check
  | .cellUncorrected => .check
  | .tableParity => .check

def ExcClass.code : ExcClass → BitVec 4
  | .format => 1
  | .traffic => 2
  | .resource => 3
  | .management => 4
  | .link => 5
  | .check => 6

/-- The code within its class (11.3). -/
def ExcCode.code : ExcCode → Byte
  | .runt => 1
  | .badCrc => 2
  | .badHeader => 3
  | .lengthMismatch => 4
  | .overlength => 5
  | .truncated => 6
  | .expiredHop => 1
  | .noRoute => 2
  | .misdirected => 3
  | .reflected => 4
  | .dequeFull => 5
  | .dequeClosed => 6
  | .shed => 7
  | .dwellExpired => 8
  | .linkAbort => 9
  | .lostByCheck => 10
  | .noRecord => 1
  | .noCell => 2
  | .noticeUndelivered => 3
  | .replyUndelivered => 4
  | .intakeFull => 1
  | .orderMalformed => 2
  | .orderAbandoned => 3
  | .claimTaken => 4
  | .claimExpired => 5
  | .linkUp => 1
  | .linkDown => 2
  | .cellCorrected => 1
  | .cellUncorrected => 2
  | .tableParity => 3

/-- Bytes 11 to 15: zero when there is no summary. -/
def summaryBytes : Option Summary → List Byte
  | none => [0, 0, 0, 0, 0]
  | some x => addressBytes x.dest ++ addressBytes x.src ++ [x.cls ++ (0#3 ++ x.kind.code)]

/-- The 20-byte form of a record (11.3). -/
def ExceptionRecord.bytes (r : ExceptionRecord) : List Byte :=
  [r.seq, r.code.cls.code ++ (0#3 ++ BitVec.ofBool (r.mark = .notified)), r.code.code, (r.port.map Port.code).getD 0]
  ++ be32 r.stamp
  ++ [(r.deque.map fun d => BitVec.ofNat 8 d.val).getD 0xFF]
  ++ be16 ((r.entry.map fun i => BitVec.ofNat 16 i.val).getD 0xFFFF)
  ++ summaryBytes r.summary
  ++ be16 ((r.cell.map fun c => BitVec.ofNat 16 c.val).getD 0xFFFF)
  ++ [r.chain.getD 0, 0#6 ++ (BitVec.ofBool r.chain.isSome ++ BitVec.ofBool r.summary.isSome)]

/-- The notice payload: count and records (11.2). -/
def noticePayload (rs : List ExceptionRecord) : List Byte :=
  BitVec.ofNat 8 rs.length :: rs.flatMap ExceptionRecord.bytes

/-- The class mask operand: bits 0, 6 and 7 name no class of the mask (R163, R194). -/
def maskOperand (b : Byte) : Option ClassMask :=
  if b.getLsbD 0 || b.getLsbD 6 || b.getLsbD 7 then none
  else some ⟨b.getLsbD 1, b.getLsbD 2, b.getLsbD 3, b.getLsbD 4, b.getLsbD 5⟩

def levelOperand (b : Byte) : Option (Fin 4) :=
  if h : b.toNat < 4 then some ⟨b.toNat, h⟩ else none

end Sys2Proof.Machine
end

