-- ==== Sys2Proof/Machine/Flags.lean ====
section
/-! DEFINITION. Exception records, the retry timer and the check record: what a request, a detection and an
acknowledgement do to the exception unit and the check monitor (chapters 9 and 10). -/

namespace Sys2Proof.Machine

open Sys2Proof

/-! ## Events the part owes -/

/-- The part owes the event `c` as a consequence of the event in hand (entry 3). -/
def State.raise (c : Instr) (s : State) : State := { s with follow := s.follow ++ [c] }

/-- The event `c` is being taken: one debt of it is settled (entry 3). -/
def State.settle (c : Instr) (s : State) : State := { s with follow := s.follow.erase c }

/-! ## The exception unit (9.2, 9.3) -/

/-- What a block supplies with a request (R168); the stamp is the timebase at the request. -/
structure Request where
  code : ExcCode
  port : Option Port := none
  deque : Option DequeNo := none
  entry : Option EntryNo := none
  summary : Option Summary := none
  cell : Option CellNo := none
  chain : Option Byte := none
  deriving DecidableEq, Repr

/-- The record a request becomes, PENDING (R171). -/
def Request.toRecord (q : Request) (seq : Byte) (now : Stamp) : ExceptionRecord where
  seq := seq
  code := q.code
  stamp := now
  port := q.port
  deque := q.deque
  entry := q.entry
  summary := q.summary
  cell := q.cell
  chain := q.chain
  mark := .pending

/-- Whether a request of the class is turned into a record; CHECK is not governed by the mask (R171). -/
def ClassMask.allows (m : ClassMask) : ExcClass → Bool
  | .format => m.format
  | .traffic => m.traffic
  | .resource => m.resource
  | .management => m.management
  | .link => m.link
  | .check => true

def ExcUnit.slot (u : ExcUnit) (i : SlotNo) : Option ExceptionRecord := u.slots[i]

def ExcUnit.setSlot (u : ExcUnit) (i : SlotNo) (x : Option ExceptionRecord) : ExcUnit :=
  { u with slots := u.slots.set i.val x i.isLt }

/-- The occupied records, oldest first (R170). -/
def ExcUnit.records (u : ExcUnit) : List ExceptionRecord := u.creation.filterMap u.slot

/-- The PENDING records, oldest first. -/
def ExcUnit.pendingRecords (u : ExcUnit) : List ExceptionRecord := u.records.filter (·.mark = .pending)

/-- Keep only the occupied records that `keep` accepts; the others leave their slot and the creation list. -/
def ExcUnit.retain (u : ExcUnit) (keep : ExceptionRecord → Bool) : ExcUnit :=
  { u with
    slots := u.slots.map (fun x => x.filter keep)
    creation := u.creation.filter (fun i => (u.slot i).any keep) }

/-- The slot for a new record: the lowest FREE one, else that of the oldest NOTIFIED record, else that of the oldest
record (R172 steps 2 to 4). -/
def ExcUnit.chooseSlot (u : ExcUnit) : SlotNo :=
  match (List.finRange 16).find? (fun i => (u.slot i).isNone) with
  | some i => i
  | none =>
    match u.creation.find? (fun i => (u.slot i).any (·.mark = .notified)) with
    | some i => i
    | none => u.creation.headD 0

/-- Creation: a record that already holds the counter's sequence is freed first; the new one takes its slot, joins the
end of the creation list, and the counter advances (R172, R173). -/
def ExcUnit.create (u : ExcUnit) (q : Request) (now : Stamp) : ExcUnit :=
  let v := u.retain (·.seq ≠ u.counter)
  let i := v.chooseSlot
  { v.setSlot i (some (q.toRecord u.counter now)) with
    creation := v.creation.erase i ++ [i]
    counter := u.counter + 1 }

/-- Records carried by a placed notice become NOTIFIED (R177). -/
def ExcUnit.notify (u : ExcUnit) (seqs : List Byte) : ExcUnit :=
  { u with slots := u.slots.map (fun x => x.map (fun r => if r.seq ∈ seqs then { r with mark := .notified } else r)) }

/-- Every NOTIFIED record returns to PENDING (R183). -/
def ExcUnit.unnotify (u : ExcUnit) : ExcUnit :=
  { u with slots := u.slots.map (fun x => x.map (fun r => { r with mark := .pending })) }

/-- A record is at or before the acknowledged value (0.5.4). -/
def atOrBefore (a s : Byte) : Bool := (a - s).toNat < 128

/-- The notice retry interval (0.5.3). -/
def retryInterval : Stamp := 100000

/-- The retry timer is RUNNING exactly while a record is PENDING and a holder exists; it starts with a stamp one
interval ahead and keeps the stamp it has (R179). -/
def State.syncTimer (s : State) : State :=
  { s with exc := { s.exc with retry :=
      if s.exc.pendingRecords ≠ [] ∧ s.claim.isSome then some (s.exc.retry.getD (s.timebase + retryInterval)) else none } }

/-- A request to the exception unit, answered with the sequence of the record created, or with none (R171). Creation
for another block than the exception unit is a trigger for notice delivery (R175, R178). -/
def State.request (q : Request) (s : State) : Option Byte × State :=
  if s.exc.mask.allows q.code.cls then
    let t := State.syncTimer { s with exc := s.exc.create q s.timebase }
    (some s.exc.counter, if q.code = .noticeUndelivered then t else t.raise .noticeDeliveryAttempt)
  else (none, s)

/-- A request whose answer the requester does not use. -/
def State.report (q : Request) (s : State) : State := (s.request q).2

/-! ## The check monitor (10.3, 10.4) -/

/-- Severity: UE above TP above CE (R187). -/
def Location.severity : Location → Nat
  | .ce _ => 1
  | .tp _ => 2
  | .ue _ => 3

/-- The flag and the location after a detection: a more severe kind replaces the location, the first of a kind stays
(R187). -/
def CheckMonitor.note (m : CheckMonitor) (x : Location) : CheckMonitor :=
  { m with
    ce := m.ce || (match x with | .ce _ => true | _ => false)
    ue := m.ue || (match x with | .ue _ => true | _ => false)
    tp := m.tp || (match x with | .tp _ => true | _ => false)
    location :=
      match m.location with
      | none => some x
      | some l => if l.severity < x.severity then some x else some l }

/-- The kinds for which the check level admits a CHECK record (R189). -/
def CheckMonitor.admits (m : CheckMonitor) : Location → Bool
  | .ue _ => 1 ≤ m.level.val
  | .tp _ => 2 ≤ m.level.val
  | .ce _ => 3 ≤ m.level.val

/-- The CHECK request for a detection (R189). -/
def checkRequest (x : Location) (port : Port) (deque : Option DequeNo) (summary : Option Summary) : Request :=
  match x with
  | .ce c => { code := .cellCorrected, port := some port, deque := deque, summary := summary, cell := some c }
  | .ue c => { code := .cellUncorrected, port := some port, deque := deque, summary := summary, cell := some c }
  | .tp i => { code := .tableParity, port := some port, entry := some i, summary := summary }

/-- A detection is taken: flag and location, then the request if the level admits it, then the answer to the reader
(R187, R188). -/
def State.detect (x : Location) (port : Port) (deque : Option DequeNo) (summary : Option Summary) (s : State) :
    Option Byte × State :=
  let t := { s with check := s.check.note x }
  if s.check.admits x then t.request (checkRequest x port deque summary) else (none, t)

end Sys2Proof.Machine
end

