-- ==== Sys2Proof/Machine/Ops.lean ====
section
/-! DEFINITION. The named operations over the state: one home for every register, the cell memory, the pool with its
reference counts, arrivals at deques, and builds. -/

namespace Sys2Proof.Machine

open Sys2Proof

/-! ## Accessors -/

def PerPort.get {α : Type} (x : PerPort α) : Port → α
  | .E => x.e
  | .W => x.w
  | .B => x.b

def PerPort.set {α : Type} (x : PerPort α) (p : Port) (v : α) : PerPort α :=
  match p with
  | .E => { x with e := v }
  | .W => { x with w := v }
  | .B => { x with b := v }

def PerPort.map {α : Type} (f : α → α) (x : PerPort α) : PerPort α := ⟨f x.e, f x.w, f x.b⟩

def State.port (s : State) (p : Port) : PortState := s.ports.get p

def State.setPort (p : Port) (x : PortState) (s : State) : State := { s with ports := s.ports.set p x }

def State.deque (s : State) (d : DequeNo) : Deque := s.deques[d]

def State.setDeque (d : DequeNo) (x : Deque) (s : State) : State := { s with deques := s.deques.set d.val x d.isLt }

def State.entry (s : State) (i : EntryNo) : Entry := s.entries[i]

def State.setEntry (i : EntryNo) (x : Entry) (s : State) : State := { s with entries := s.entries.set i.val x i.isLt }

def State.record (s : State) (r : RecordNo) : FrameRecord := s.records[r]

def State.setRecord (r : RecordNo) (x : FrameRecord) (s : State) : State :=
  { s with records := s.records.set r.val x r.isLt }

def State.eccOf (s : State) (c : CellNo) : Ecc := s.ecc[c]

def State.setEcc (c : CellNo) (x : Ecc) (s : State) : State := { s with ecc := s.ecc.set c.val x c.isLt }

/-- The held frame of a record number, if the record is HELD. -/
def State.held? (s : State) (r : RecordNo) : Option HeldFrame :=
  match s.record r with
  | .held h => some h
  | _ => none

/-! ## Cell memory (R50) -/

/-- The bytes of the cell buffer, by byte address. -/
abbrev Memory := List Host.Cell

/-- What an unlisted address reads as (DESIGN CHOICE, entry 12). -/
def Memory.unlisted : Byte := 0

/-- 2048 cells of 128 bytes. -/
def Memory.size : Nat := 262144

/-- The canonical form: addresses strictly rising and inside the buffer, no entry equal to an unlisted byte. -/
abbrev Memory.wf (m : Memory) : Prop :=
  m.Pairwise (fun c d => c.1 < d.1) ∧ ∀ c ∈ m, c.1 < Memory.size ∧ c.2 ≠ Memory.unlisted

def Memory.read : Memory → Nat → Byte
  | [], _ => Memory.unlisted
  | (k, v) :: m, a => if k = a then v else Memory.read m a

def Memory.write : Memory → Nat → Byte → Memory
  | [], a, b => if b = Memory.unlisted then [] else [(a, b)]
  | (k, v) :: m, a, b =>
    if a < k then (if b = Memory.unlisted then (k, v) :: m else (a, b) :: (k, v) :: m)
    else if a = k then (if b = Memory.unlisted then m else (a, b) :: m)
    else (k, v) :: Memory.write m a b

/-- The cell that holds stored byte `i` of a frame with these cells (R50). A list shorter than the frame does not occur
(R59); cell 0 then stands in. -/
def cellAt (cells : List CellNo) (i : Nat) : CellNo := cells.getD (i / 128) 0

/-- The address of stored byte `i` (R50). -/
def storedAddress (cells : List CellNo) (i : Nat) : Nat := (cellAt cells i).val * 128 + i % 128

/-- Write bytes from stored position `i` on. -/
def writeStored (cells : List CellNo) : Nat → List Byte → Memory → Memory
  | _, [], m => m
  | i, b :: bs, m => writeStored cells (i + 1) bs (m.write (storedAddress cells i) b)

/-- Stored bytes `from_` to `from_ + n - 1`. -/
def readStored (cells : List CellNo) (m : Memory) : Nat → Nat → List Byte
  | _, 0 => []
  | i, n + 1 => m.read (storedAddress cells i) :: readStored cells m (i + 1) n

/-- Cells a frame of stored length `n` needs: n divided by 128, rounded up (R50). -/
def cellsFor (n : Nat) : Nat := (n + 127) / 128

/-- A write gives each cell a fresh code (R50). -/
def freshCodes (cells : List CellNo) (ecc : Vector Ecc 2048) : Vector Ecc 2048 :=
  cells.foldl (fun e c => e.set c.val .sound c.isLt) ecc

/-! ## Storage upsets (entry 7) -/

/-- Damage that has struck the storage. A FREE entry has no content to damage (R10); a VALID entry's content can only
come to fail its check; what the check of a SUSPECT entry finds may change either way (R12). A cell's error stays until
the cell is written (R93, R94). -/
def State.strikeOne (s : State) : Upset → State
  | .entry i now =>
    match (s.entry i).body, now with
    | .valid _, .damaged _ => s.setEntry i { s.entry i with body := .valid now }
    | .suspect _, _ => s.setEntry i { s.entry i with body := .suspect now }
    | _, _ => s
  | .cell c .corrected => if s.eccOf c = .sound then s.setEcc c .corrected else s
  | .cell c .uncorrected => s.setEcc c .uncorrected

def State.strike (us : List Upset) (s : State) : State := us.foldl State.strikeOne s

/-! ## The pool (chapter 3) -/

/-- The reserve (R65). -/
def cellReserve : Nat := 16

def recordReserve : Nat := 8

/-- The record becomes FREE: its cells join the tail of the free-cell queue in list order, the record that of the
free-record queue (R60, R63). -/
def State.freeFrame (r : RecordNo) (cells : List CellNo) (s : State) : State :=
  { s.setRecord r .free with freeCells := s.freeCells ++ cells, freeRecords := s.freeRecords ++ [r] }

/-- A release lowers the count by 1; at 0 it frees the frame (R63). -/
def State.release (r : RecordNo) (s : State) : State :=
  match s.record r with
  | .held h => if h.count ≤ 1 then s.freeFrame r h.cells else s.setRecord r (.held { h with count := h.count - 1 })
  | _ => s

/-- An addition of a reference by a block to which a holder hands the record (R62). -/
def State.addRef (r : RecordNo) (s : State) : State :=
  match s.record r with
  | .held h => s.setRecord r (.held { h with count := h.count + 1 })
  | _ => s

/-- The destination, source, class and kind of a header. -/
def Header.summary (h : Header) : Summary := ⟨h.dest, h.src, h.cls, h.kind⟩

/-- The frame summary read from a HELD record (R54). -/
def State.summaryOf (s : State) (r : RecordNo) : Option Summary := (s.held? r).map (·.header.summary)

/-- A build: one record and all its cells in one request, down to zero free, and the frame written into them (R57). -/
def State.build (h : Header) (payload : List Byte) (s : State) : Option (RecordNo × State) :=
  let n := 8 + payload.length
  match s.freeRecords with
  | [] => none
  | r :: rest =>
    if cellsFor n ≤ s.freeCells.length then
      let cells := s.freeCells.take (cellsFor n)
      some (r, { s.setRecord r (.held ⟨cells, n, .internal, h, s.timebase, 1⟩) with
        freeRecords := rest
        freeCells := s.freeCells.drop (cellsFor n)
        mem := writeStored cells 0 (h.encode payload.length ++ payload) s.mem
        ecc := freshCodes cells s.ecc })
    else none

/-! ## Deques (chapter 2) -/

/-- The intake deque (R29). -/
def intake : DequeNo := 28

/-- The control deque of a port (R30). -/
def controlDeque : Port → DequeNo
  | .E => 29
  | .W => 30
  | .B => 31

/-- The answer to an arrival (R31). -/
inductive Arrival
  | accepted | alreadyPresent | dequeClosed | dequeFull
  deriving DecidableEq, Repr

/-- The port a binding names. -/
def Binding.port? : Binding → Option Port
  | .port p => some p
  | _ => none

/-- New work on an ACTIVE deque is offered to its consumer; the take that follows is its own event (R39). -/
def State.offer (d : DequeNo) (s : State) : State :=
  match (s.deque d).state, (s.deque d).config.binding with
  | .active, .port p => s.raise (.takeAttempt p)
  | .active, .mgmt => s.raise (.engineTake [])
  | _, _ => s

/-- An addition at the tail or at the head (R32). -/
def place (e : Insertion) (r : RecordNo) (l : List RecordNo) : List RecordNo :=
  match e with
  | .tail => l ++ [r]
  | .head => r :: l

/-- The entry a full deque sheds under its policy, and the entries left (R34). -/
def shedEntry (p : Policy) (l : List RecordNo) : Option (RecordNo × List RecordNo) :=
  match p, l with
  | .shedOldest, v :: rest => some (v, rest)
  | .shedNewest, _ :: _ => l.getLast?.map (fun v => (v, l.dropLast))
  | _, _ => none

/-- The shed of an arrival into a full deque: TRAFFIC/SHED with the summary of the shed frame, the release, and the
addition, in one event (R34, R36). -/
def State.shedInto (d : DequeNo) (r : RecordNo) (e : Insertion) (v : RecordNo) (rest : List RecordNo) (s : State) :
    State :=
  let t := s.report
    { code := .shed, port := (s.deque d).config.binding.port?, deque := some d, summary := s.summaryOf v }
  ((t.setDeque d { t.deque d with entries := place e r rest }).release v).addRef r

/-- An arrival, judged on the deque's state, entries and length (R32 to R35). -/
def State.arrive (d : DequeNo) (r : RecordNo) (e : Insertion) (s : State) : Arrival × State :=
  let q := s.deque d
  match q.state with
  | .detached => (.dequeClosed, s)
  | .draining _ _ => (.dequeClosed, s)
  | .active | .paused =>
    if r ∈ q.entries then (.alreadyPresent, s)
    else if q.entries.length < q.config.limit.toNat then
      let t := (s.setDeque d { q with entries := place e r q.entries }).addRef r
      (.accepted, if q.entries = [] then t.offer d else t)
    else
      match shedEntry q.config.policy q.entries with
      | some (v, rest) => (.accepted, s.shedInto d r e v rest)
      | none => (.dequeFull, s)

/-! ## Checked reads (R50, R93, R94, R124, R186) -/

/-- Reads of cells in order by a transmitter or the parse: each error is a detection at its read, and the first that
cannot be corrected ends the reads, with its cell and the sequence of its CHECK record. -/
def State.checkedReads (p : Port) (d : DequeNo) (m : Option Summary) :
    List CellNo → State → Option (CellNo × Option Byte) × State
  | [], s => (none, s)
  | c :: cs, s =>
    match s.eccOf c with
    | .sound => State.checkedReads p d m cs s
    | .corrected => State.checkedReads p d m cs (s.detect (.ce c) p (some d) m).2
    | .uncorrected =>
      match s.detect (.ue c) p (some d) m with
      | (chain, t) => (some (c, chain), t)

/-! ## Line output (entries 10 and 13) -/

/-- The cells a transmitter reads for a frame: all of its list, or none when there is no payload (R92). -/
def HeldFrame.payloadCells (h : HeldFrame) : List CellNo := if h.length ≤ 8 then [] else h.cells

/-- The cells that a transmission of record `r` is to read. -/
def State.cellsToRead (s : State) (r : RecordNo) : List CellNo :=
  match s.held? r with
  | some h => h.payloadCells
  | none => []

/-- Header and payload as a transmitter sends them (R54, R92). -/
def HeldFrame.sentBytes (h : HeldFrame) (m : Memory) : List Byte :=
  h.header.encode (h.length - 8) ++ readStored h.cells m 8 (h.length - 8)

/-- Header and payload of a record as sent; nothing for a record that is not HELD. -/
def State.sentBytes (s : State) (r : RecordNo) : List Byte :=
  match s.held? r with
  | some h => h.sentBytes s.mem
  | none => []

/-- Bytes of the frame on the line before the first byte of cell `c`: the header, and the payload up to it (R94). -/
def State.bytesBefore (s : State) (r : RecordNo) (c : CellNo) : List Byte :=
  match s.held? r with
  | some h => (h.sentBytes s.mem).take (max 8 (128 * (h.cells.takeWhile (· ≠ c)).length))
  | none => []

/-- How many bytes have left at the least when `n` cells have been read: all that stand before the last of them. -/
def leastSent (n : Nat) : Nat := if n = 0 then 0 else max 8 (128 * (n - 1))

/-- How many cells a transmission of record `r` has read when these are still unread. -/
def State.cellsRead (s : State) (r : RecordNo) (unread : List CellNo) : Nat :=
  (s.cellsToRead r).length - unread.length

/-- The most of `whole` that can have left while `unread` cells are unread: nothing from the first of them whose read
would be a detection. -/
def State.sendable (s : State) (r : RecordNo) (unread : List CellNo) (whole : List Byte) : List Byte :=
  match unread.find? (fun c => s.eccOf c ≠ .sound) with
  | some c => s.bytesBefore r c
  | none => whole

/-- A free number of bytes, `least` or more (entry 10). -/
def State.cutShort (s : State) (least : Nat) (bytes : List Byte) : List Byte :=
  bytes.take (least + Config.cutLength s.freeDraws % (bytes.length + 1 - least))

/-- A free value has been drawn. -/
def State.drawn (s : State) : State := { s with freeDraws := s.freeDraws + 1 }

/-- The whole frame: header, payload, CRC (R92). -/
def completeFrame (bytes : List Byte) : LineFrame := ⟨bytes ++ crcBytes (crc bytes), .complete⟩

/-- A poisoned end: the complement of the CRC over the bytes sent (R94, R100). -/
def poisonedFrame (bytes : List Byte) : LineFrame := ⟨bytes ++ crcBytes (~~~ crc bytes), .poisoned⟩

/-- The line stops with no end (R95). -/
def cutFrame (bytes : List Byte) : LineFrame := ⟨bytes, .cut⟩

end Sys2Proof.Machine
end

