-- ==== Sys2Proof/Machine/Table.lean ====
section
/-! DEFINITION. The steering table's lookup (1.3, 1.4): the search, the parity check, and the copy handed to the asker.
-/

namespace Sys2Proof.Machine

open Sys2Proof

/-- Whether entry `i` is VALID and its stored key matches the triple (R8). -/
def State.entryMatches (s : State) (d : Address) (c : BitVec 3) (p : Port) (i : EntryNo) : Bool :=
  match (s.entry i).body with
  | .valid x => x.matches d c p
  | _ => false

/-- The VALID entries whose stored key matches the triple, by rising index. -/
def State.matching (s : State) (d : Address) (c : BitVec 3) (p : Port) : List EntryNo :=
  (List.finRange 512).filter (s.entryMatches d c p)

/-- The entry the search finds. With undamaged keys at most one matches (R6); among several, a free value (entry 8). -/
def State.search (s : State) (d : Address) (c : BitVec 3) (p : Port) : Option EntryNo :=
  match s.matching d c p with
  | [] => none
  | [i] => some i
  | i :: j :: rest => (i :: j :: rest)[Config.searchPick (i :: j :: rest) % (rest.length + 2)]?

/-- The default entry of a port as a result (R5, R9). -/
def State.defaultResult (s : State) (p : Port) : LookupResult := ⟨.default p, (s.defaults.get p).disposition⟩

/-- The content a keyed entry holds, if it holds one. -/
def EntryBody.stored? : EntryBody → Option Stored
  | .free => none
  | .valid x => some x
  | .suspect x => some x

/-- A parity failure at a read: the entry is SUSPECT with its content as stored, and TABLE_PARITY is reported (R11,
R12). `reader` is the port the detection carries (R186). -/
def State.markSuspect (i : EntryNo) (x : Stored) (reader : Port) (summary : Option Summary) (s : State) : State :=
  ((s.setEntry i { s.entry i with body := .suspect x }).detect (.tp i) reader none summary).2

/-- A lookup: the matching entry if its content passes the check, otherwise the default entry of the port (R8, R11). -/
def State.lookup (d : Address) (c : BitVec 3) (p : Port) (reader : Port) (summary : Option Summary) (s : State) :
    LookupResult × State :=
  match s.search d c p with
  | none => (s.defaultResult p, s)
  | some i =>
    match (s.entry i).body with
    | .valid (.sound x) => (⟨.keyed i, x.disposition⟩, s)
    | .valid (.damaged b) => (s.defaultResult p, s.markSuspect i (.damaged b) reader summary)
    | _ => (s.defaultResult p, s)

end Sys2Proof.Machine
end

