-- ==== Sys2Proof/Machine/Admission.lean ====
section
/-! DEFINITION. Admission (chapter 4): the hand-over of a good frame, inside the END_OF_FRAME command, and the steps
from there to the release, each an event of its own that the block makes by itself (4.7; entries 2 and 3). -/

namespace Sys2Proof.Machine

open Sys2Proof

def State.updPort (p : Port) (f : PortState → PortState) (s : State) : State := s.setPort p (f (s.port p))

def State.setReceiver (p : Port) (x : Receiver) (s : State) : State := s.updPort p (fun y => { y with receiver := x })

def State.setAdmission (p : Port) (x : AdmissionUnit) (s : State) : State :=
  s.updPort p (fun y => { y with admission := x })

/-- The broadcast address. -/
def broadcast : Address := 4095

/-- The choice of path (R69). -/
def choosePath (station : Address) (h : Header) : Path :=
  if h.dest = station then .own
  else if h.dest = broadcast ∧ h.kind = Kind.order then .broadcastOrder
  else .steered

/-- A record request of admission (R81). -/
def State.admissionReport (p : Port) (r : RecordNo) (code : ExcCode) (deque : Option DequeNo) (entry : Option EntryNo)
    (s : State) : State :=
  s.report { code := code, port := some p, deque := deque, entry := entry, summary := s.summaryOf r }

/-- The first step after hand-over (R69). -/
def firstStep (path : Path) (h : Header) : AdmitStep :=
  match path with
  | .own => if h.kind = Kind.order then .append else .misdirect
  | .broadcastOrder => .append
  | .steered => .hopCheck

/-- Hand-over: the record becomes HELD with count 1 and the admission unit ADMITTING; the receiver is IDLE (R59, R69,
R115). -/
def State.handOver (p : Port) (r : RecordNo) (f : ReceivingFrame) (length : Nat) (h : Header) (s : State) : State :=
  ((s.setRecord r (.held ⟨f.cells, length, .port f.port, h, f.stamp, 1⟩)).setReceiver p .idle).setAdmission p
    (.admitting ⟨r, s.station, choosePath s.station h, none, none, firstStep (choosePath s.station h) h⟩)

/-- The end of admission: the reference is released and the unit is IDLE (R80). -/
def State.admissionRelease (p : Port) (r : RecordNo) (s : State) : State := (s.release r).setAdmission p .idle

/-- The append at the tail of intake; a refusal is MANAGEMENT/INTAKE_FULL (R70, R72). -/
def State.intakeAppend (p : Port) (r : RecordNo) (s : State) : State :=
  match s.arrive intake r .tail with
  | (.accepted, t) => t
  | (.alreadyPresent, t) => t
  | (.dequeClosed, t) => t.admissionReport p r .intakeFull (some intake) none
  | (.dequeFull, t) => t.admissionReport p r .intakeFull (some intake) none

/-- The keyed index a record about the frame carries; absent for a default entry (R9, R81). -/
def EntryUsed.index? : EntryUsed → Option EntryNo
  | .keyed i => some i
  | .default _ => none

/-- One target: the reflection check, then the arrival (R77, R78, R79). -/
def State.placeTarget (p : Port) (r : RecordNo) (used : EntryUsed) (ins : Insertion) (d : DequeNo) (s : State) : State :=
  if (s.deque d).config.binding = .port p then s.admissionReport p r .reflected (some d) used.index?
  else
    match s.arrive d r ins with
    | (.accepted, t) => t
    | (.alreadyPresent, t) => t
    | (.dequeClosed, t) => t.admissionReport p r .dequeClosed (some d) used.index?
    | (.dequeFull, t) => t.admissionReport p r .dequeFull (some d) used.index?

/-- The hop rule, applied once and before any placement (R76). -/
def State.applyHopRule (r : RecordNo) (rule : HopRule) (s : State) : State :=
  match rule, s.record r with
  | .decrement, .held h => s.setRecord r (.held { h with header := { h.header with hop := h.header.hop - 1 } })
  | _, _ => s

/-! ## The steps -/

/-- The unit goes on to another step, with what it holds there. -/
def State.admitNext (p : Port) (a : Admitting) (next : AdmitStep) (s : State) : State :=
  s.setAdmission p (.admitting { a with next := next })

/-- The append to intake; an own ORDER frame is then done with, a broadcast one is steered (R70, R72). -/
def State.appendStep (p : Port) (a : Admitting) (s : State) : State :=
  (s.intakeAppend p a.frame).admitNext p a (match a.path with | .own => .release | _ => .hopCheck)

/-- An own frame that is no ORDER frame is placed nowhere (R71). -/
def State.misdirectStep (p : Port) (a : Admitting) (s : State) : State :=
  (s.admissionReport p a.frame .misdirected none none).admitNext p a .release

/-- The hop check (R73). -/
def State.hopStep (p : Port) (a : Admitting) (h : Header) (s : State) : State :=
  if h.hop = 0 then (s.admissionReport p a.frame .expiredHop none none).admitNext p a .release
  else s.admitNext p a .lookup

/-- The lookup; the unit keeps its copy (R74). -/
def State.lookupStep (p : Port) (a : Admitting) (h : Header) (s : State) : State :=
  match s.lookup h.dest h.cls p p (some h.summary) with
  | (x, t) => t.admitNext p { a with result := some x } .act

/-- The action of the copy: a discard, or the hop rule before the first target (R75, R76). -/
def State.actStep (p : Port) (a : Admitting) (x : LookupResult) (s : State) : State :=
  match x.disposition.action with
  | .discard => s.admitNext p a .release
  | .discardReport => (s.admissionReport p a.frame .noRoute none x.used.index?).admitNext p a .release
  | .forward _ => (s.applyHopRule a.frame x.disposition.hopRule).admitNext p { a with nextTarget := some 1 } .place

/-- The targets of a copy; none unless its action is FORWARD (R4). -/
def LookupResult.targets (x : LookupResult) : List GeneralNo :=
  match x.disposition.action with
  | .forward ts => ts
  | _ => []

/-- The most targets of one entry (R4). -/
def mostTargets : Nat := 3

/-- Placement at target `k`, counted from 1, and then the next target or, after the last, the release (R77). -/
def State.placeStep (p : Port) (a : Admitting) (x : LookupResult) (k : Nat) (s : State) : State :=
  match x.targets[k - 1]? with
  | none => s.admitNext p { a with nextTarget := none } .release
  | some g =>
    let t := s.placeTarget p a.frame x.used x.disposition.insertion (general g)
    if k < x.targets.length ∧ k < mostTargets then t.admitNext p { a with nextTarget := some (k + 1) } .place
    else t.admitNext p { a with nextTarget := none } .release

/-- One step of the admission of a HELD frame; a unit without the item its step needs does not occur, and releases
(entry 20). -/
def State.admitHeld (p : Port) (a : Admitting) (h : Header) (s : State) : State :=
  match a.next, a.result, a.nextTarget with
  | .append, _, _ => s.appendStep p a
  | .misdirect, _, _ => s.misdirectStep p a
  | .hopCheck, _, _ => s.hopStep p a h
  | .lookup, _, _ => s.lookupStep p a h
  | .act, some x, _ => s.actStep p a x
  | .place, some x, some k => s.placeStep p a x k
  | _, _, _ => s.admissionRelease p a.frame

/-- One step of the admission under way on port `p`: one event (4.7). -/
def State.admitStep (p : Port) (s : State) : State :=
  match (s.port p).admission with
  | .idle => s
  | .admitting a =>
    match s.held? a.frame with
    | some h => s.admitHeld p a h.header
    | none => s.admissionRelease p a.frame

end Sys2Proof.Machine
end

