-- ==== Sys2Proof/Machine/Scheduler.lean ====
section
/-! DEFINITION. The egress schedulers (chapter 5): candidates, selection, the take and the dwell check. -/

namespace Sys2Proof.Machine

open Sys2Proof

def State.setLink (p : Port) (x : LinkState) (s : State) : State := s.updPort p (fun y => { y with link := x })

def State.setTransmitter (p : Port) (x : Transmitter) (s : State) : State :=
  s.updPort p (fun y => { y with transmitter := x })

/-- The link is UP (R102). -/
def LinkState.isUp : LinkState → Bool
  | .up _ => true
  | _ => false

/-! ## Selection (R86, R88) -/

/-- A deque is a candidate of port `p`; on a held port the control deque is the only possible one (R86). -/
def State.candidate (s : State) (p : Port) (d : DequeNo) : Bool :=
  (s.deque d).config.binding = .port p && (s.deque d).state = .active && (s.deque d).entries ≠ [] &&
    (!(s.port p).held || d = controlDeque p)

/-- What selection chooses: the control deque, or a general deque at its level. -/
inductive Choice
  | control
  | atLevel (level : Fin 8) (g : GeneralNo)
  deriving DecidableEq, Repr

def Choice.deque (p : Port) : Choice → DequeNo
  | .control => controlDeque p
  | .atLevel _ g => general g

/-- The numbers in ascending circular order from one above the marker, ending at the marker (R88). -/
def searchOrder (marker : GeneralNo) : List GeneralNo :=
  (List.finRange 28).map (fun k => ⟨(marker.val + 1 + k.val) % 28, Nat.mod_lt _ (by decide)⟩)

/-- The marker of a level (R85). -/
def State.marker (s : State) (p : Port) (v : Fin 8) : GeneralNo := (s.port p).markers[v]

/-- The first candidate of level `v` in the search from its marker. -/
def State.levelChoice (s : State) (p : Port) (v : Fin 8) : Option GeneralNo :=
  (searchOrder (s.marker p v)).find? (fun g =>
    s.candidate p (general g) && (s.deque (general g)).config.priority = some v.castSucc)

/-- The levels from the highest. -/
def levels : List (Fin 8) := [7, 6, 5, 4, 3, 2, 1, 0]

/-- Selection: the control deque over every general deque, then the highest level that has a candidate (R88). -/
def State.select (s : State) (p : Port) : Option Choice :=
  if s.candidate p (controlDeque p) then some .control
  else levels.findSome? (fun v => (s.levelChoice p v).map (.atLevel v))

/-- The marker moves with a take from a general deque (R88). -/
def State.moveMarker (p : Port) (c : Choice) (s : State) : State :=
  match c with
  | .control => s
  | .atLevel v g => s.updPort p (fun y => { y with markers := y.markers.set v.val g v.isLt })

/-! ## The take (R37, R89, R91) -/

/-- The dwell test: age above the limit times 100 microseconds; a limit of 0 makes no test (R89). -/
def pastDwell (limit : BitVec 16) (stamp now : Stamp) : Bool :=
  limit != 0 && limit.toNat * 100 < (now - stamp).toNat

/-- Whether the dwell test of deque `d` fails frame `r` now. -/
def State.expired (s : State) (d : DequeNo) (r : RecordNo) : Bool :=
  match s.held? r with
  | some h => pastDwell (s.deque d).config.dwell h.stamp s.timebase
  | none => false

/-- The frame taken is dropped for age, or goes to the transmitter (R89, R91). -/
def State.sendOrDrop (p : Port) (d : DequeNo) (r : RecordNo) (s : State) : State :=
  if s.expired d r then
    ((s.report { code := .dwellExpired, port := some p, deque := some d, summary := s.summaryOf r }).release r).raise
      (.takeAttempt p)
  else s.setTransmitter p (.sending r d (s.cellsToRead r))

/-- The head of the chosen deque is taken; take and marker are one event (R37, R88). -/
def State.takeFrom (p : Port) (c : Choice) (s : State) : State :=
  let d := c.deque p
  match (s.deque d).entries with
  | [] => s
  | r :: rest => ((s.setDeque d { s.deque d with entries := rest }).moveMarker p c).sendOrDrop p d r

/-- A take attempt (R87). -/
def State.takeAttempt (p : Port) (s : State) : State :=
  match (s.port p).transmitter with
  | .sending _ _ _ => s
  | .idle =>
    if (s.port p).link.isUp then
      match s.select p with
      | some c => s.takeFrom p c
      | none => s
    else s

end Sys2Proof.Machine
end

