-- ==== Sys2Proof/Machine/Line.lean ====
section
/-! DEFINITION. The links and the receivers (chapter 6): the meanings of the line events. -/

namespace Sys2Proof.Machine

open Sys2Proof

def State.setLineOut (p : Port) (x : LineFrame) (s : State) : State := s.updPort p (fun y => { y with lineOut := some x })

/-! ## What a transmission and a reception lose with the link -/

/-- The line stops: a free number of the frame's bytes, CRC included, had left (R95; entry 10). -/
def State.cutLine (p : Port) (r : RecordNo) (unread : List CellNo) (s : State) : State :=
  let whole := (completeFrame (s.sentBytes r)).bytes
  (s.setLineOut p (cutFrame (s.cutShort (leastSent (s.cellsRead r unread)) (s.sendable r unread whole)))).drawn

/-- TRAFFIC/LINK_ABORT (R101). -/
def State.linkAbort (p : Port) (r : RecordNo) (d : DequeNo) (s : State) : State :=
  s.report { code := .linkAbort, port := some p, deque := some d, summary := s.summaryOf r }

/-- The frame of an aborted transmission goes back to the head of its source deque under retain, or is lost with
LINK_ABORT (R95, R96). -/
def State.requeue (p : Port) (r : RecordNo) (d : DequeNo) (s : State) : State :=
  if (s.deque d).config.retain = some true then
    match s.arrive d r .head with
    | (.accepted, t) => t
    | (.alreadyPresent, t) => t
    | (.dequeFull, t) => t.linkAbort p r d
    | (.dequeClosed, t) => t.linkAbort p r d
  else s.linkAbort p r d

/-- The abort of a transmission whose link leaves UP; its cells still unread are not read (R99). The take attempt that
follows it finds the link not UP and ends at once (R95), so none is owed. -/
def State.abort (p : Port) (s : State) : State :=
  match (s.port p).transmitter with
  | .idle => s
  | .sending r d unread => (((s.cutLine p r unread).requeue p r d).release r).setTransmitter p .idle

/-- A receiver returns its record and cells to the pool (R60). -/
def State.returnReceived (r : RecordNo) (s : State) : State :=
  match s.record r with
  | .receiving f => s.freeFrame r f.cells
  | _ => s

/-- A record request of a port or its receiver (R118). -/
def State.portReport (p : Port) (code : ExcCode) (s : State) : State := s.report { code := code, port := some p }

/-- The receiver of a link that leaves UP (R105 steps 3 and 4). -/
def State.cutReception (p : Port) (s : State) : State :=
  match (s.port p).receiver with
  | .idle => s
  | .receiving x => ((s.portReport p .truncated).returnReceived x.record).setReceiver p .idle
  | .discarding => s.setReceiver p .idle

/-- Groups that wait for the receiver when the link leaves UP are not seen: the event of the link is the one the port
has taken first (R115). -/
def State.dropWaits (p : Port) (s : State) : State := s.updPort p (fun y => { y with lineWaits := [] })

/-- The link leaves UP (R105). -/
def State.leaveUp (p : Port) (s : State) : State :=
  ((((s.portReport p .linkDown).abort p).cutReception p).dropWaits p).setLink p .down

/-- The link becomes UP: LINK_UP, and the scheduler's take attempt, in the event (R106). -/
def State.becomeUp (p : Port) (s : State) : State :=
  ((s.setLink p (.up 0)).portReport p .linkUp).takeAttempt p

/-! ## Alignment (R103, R104) -/

/-- The idle run at which alignment is achieved. -/
def alignmentRun : Nat := 32

/-- The invalid run at which alignment is lost. -/
def lossRun : Nat := 4

/-- A valid group other than idle: it breaks the idle run in SYNC and the invalid run in UP (R103). -/
def State.validGroup (p : Port) (s : State) : State :=
  match (s.port p).link with
  | .down => s
  | .sync _ => s.setLink p (.sync 0)
  | .up _ => s.setLink p (.up 0)

/-! ## The receiver -/

/-- A start of frame at an IDLE receiver: it takes a record, or is refused one (R56, R110). -/
def State.beginFrame (p : Port) (s : State) : State :=
  match s.freeRecords with
  | r :: rest =>
    if recordReserve < s.freeRecords.length then
      { s.setRecord r (.receiving ⟨[], p, s.timebase⟩) with freeRecords := rest }.setReceiver p (.receiving ⟨r, 0, false, []⟩)
    else (s.portReport p .noRecord).setReceiver p .discarding
  | [] => (s.portReport p .noRecord).setReceiver p .discarding

/-- A reception given up: the record request, the return, DISCARDING (R112, R113). -/
def State.giveUp (p : Port) (r : RecordNo) (code : ExcCode) (s : State) : State :=
  ((s.portReport p code).returnReceived r).setReceiver p .discarding

/-- A cell for a RECEIVING record, taken when more than 16 are free (R56). -/
def State.takeCell (r : RecordNo) (s : State) : Option State :=
  match s.freeCells, s.record r with
  | c :: rest, .receiving f =>
    if cellReserve < s.freeCells.length then
      some { s.setRecord r (.receiving { f with cells := f.cells ++ [c] }) with freeCells := rest }
    else none
  | _, _ => none

/-- Stored byte `i` of a RECEIVING record; the write gives its cell a fresh code (R50, R111). -/
def State.storeByte (r : RecordNo) (i : Nat) (b : Byte) (s : State) : State :=
  match s.record r with
  | .receiving f => { s.setEcc (cellAt f.cells i) .sound with mem := Memory.write s.mem (storedAddress f.cells i) b }
  | _ => s

/-- The greatest number of line bytes of a frame, plus one (R112). -/
def overlengthCount : Nat := 1029

/-- A data byte at a RECEIVING receiver (R111 to R113): line byte 1029 ends reception; otherwise the byte enters the
window, and the byte it pushes out is stored, with a cell asked for at each 128-byte boundary. -/
def State.receiveByte (p : Port) (x : Reception) (b : Byte) (s : State) : State :=
  let n := x.lineBytes + 1
  if n = overlengthCount then s.giveUp p x.record .overlength
  else
    match x.window with
    | o :: w0 :: w1 :: w2 :: _ =>
      let kept : Receiver := .receiving { x with lineBytes := n, window := [w0, w1, w2, b] }
      if (n - 5) % 128 = 0 then
        match s.takeCell x.record with
        | some t => (t.storeByte x.record (n - 5) o).setReceiver p kept
        | none => s.giveUp p x.record .noCell
      else (s.storeByte x.record (n - 5) o).setReceiver p kept
    | w => s.setReceiver p (.receiving { x with lineBytes := n, window := w ++ [b] })

/-- The four end checks: the first that fails names the code (R114). -/
def endFault (x : Reception) (stored : List Byte) : Option ExcCode :=
  if x.lineBytes < 12 then some .runt
  else if x.damaged || crcBytes (crc stored) != x.window then some .badCrc
  else if !headerFormGood stored then some .badHeader
  else if payloadLengthField stored ≠ stored.length - 8 then some .lengthMismatch
  else none

/-- The summary of a LENGTH_MISMATCH record, and of no other end fault (R118). -/
def endSummary (code : ExcCode) (stored : List Byte) : Option Summary :=
  if code = .lengthMismatch then (Header.decode stored).map Header.summary else none

/-- An end of frame at a RECEIVING receiver (R114, R115). -/
def State.endReception (p : Port) (x : Reception) (s : State) : State :=
  match s.record x.record with
  | .receiving f =>
    let stored := readStored f.cells s.mem 0 (x.lineBytes - 4)
    match endFault x stored, Header.decode stored with
    | none, some h => s.handOver p x.record f stored.length h
    | none, none => s
    | some code, _ =>
      ((s.report { code := code, port := some p, summary := endSummary code stored }).returnReceived x.record).setReceiver
        p .idle
  | _ => s

/-- The damage mark of a frame being received (R111). -/
def State.markDamage (p : Port) (s : State) : State :=
  match (s.port p).receiver with
  | .receiving x => s.setReceiver p (.receiving { x with damaged := true })
  | _ => s

/-- A start of frame reaches the receiver (R110, R116, R117). -/
def State.takeStart (p : Port) (s : State) : State :=
  match (s.port p).receiver with
  | .receiving x => ((s.portReport p .truncated).returnReceived x.record).beginFrame p
  | _ => s.beginFrame p

/-- A data byte reaches the receiver (R111, R116). -/
def State.takeData (p : Port) (b : Byte) (s : State) : State :=
  match (s.port p).receiver with
  | .receiving x => s.receiveByte p x b
  | _ => s

/-- An end of frame reaches the receiver (R114 to R116). -/
def State.takeEnd (p : Port) (s : State) : State :=
  match (s.port p).receiver with
  | .receiving x => s.endReception p x
  | .discarding => s.setReceiver p .idle
  | .idle => s

/-- The receiver takes a group: one event at the receiver (R109). -/
def State.takeGroup (p : Port) (g : LineGroup) (s : State) : State :=
  match g with
  | .start => s.takeStart p
  | .data b => s.takeData p b
  | .invalid => s.markDamage p
  | .finish => s.takeEnd p

/-! ## An end of frame waits for the admission unit of its port (R68, R115) -/

/-- The receiver can take the group now: an end of frame only while the port's admission unit is IDLE (R68). -/
def PortState.takes (y : PortState) (g : LineGroup) : Bool :=
  match g, y.admission with
  | .finish, .admitting _ => false
  | _, _ => true

/-- A group comes to the receiver. It is taken in the event in which it comes; but an end of frame that has to wait, and
what comes behind one, waits (R68; entry 25). -/
def State.reachReceiver (p : Port) (g : LineGroup) (s : State) : State :=
  if (s.port p).lineWaits = [] ∧ (s.port p).takes g = true then s.takeGroup p g
  else s.updPort p (fun y => { y with lineWaits := y.lineWaits ++ [g] })

/-- The receiver takes the first group that waits. -/
def State.takeWaiting (p : Port) (s : State) : State :=
  match (s.port p).lineWaits with
  | [] => s
  | g :: rest => (s.updPort p (fun y => { y with lineWaits := rest })).takeGroup p g

/-! ## The meanings -/

/-- SIGNAL_DETECTED (R103, R104). -/
def execSignalDetected (p : Port) (s : State) : Host.Outcome State Fault Refusal :=
  let t := s.updPort p (fun y => { y with signal := true })
  .next (match (s.port p).link, (s.port p).quietUntil with
    | .down, none => t.setLink p (.sync 0)
    | _, _ => t)

/-- LOSS_OF_SIGNAL (R104, R105). -/
def execLossOfSignal (p : Port) (s : State) : Host.Outcome State Fault Refusal :=
  let t := s.updPort p (fun y => { y with signal := false })
  .next (match (s.port p).link with
    | .down => t
    | .sync _ => t.setLink p .down
    | .up _ => t.leaveUp p)

/-- ALIGNMENT_ACHIEVED: the event at which the idle run of a SYNC port reaches 32, which is its thirty-second idle group
(R103, R106; entry 14). -/
def execAlignmentAchieved (p : Port) (s : State) : Host.Outcome State Fault Refusal :=
  .next (match (s.port p).link with
    | .sync n => if alignmentRun ≤ n + 1 then s.becomeUp p else s
    | _ => s)

/-- LOSS_OF_ALIGNMENT: the event at which the invalid run of an UP port reaches 4, which is its fourth invalid group
(R103, R105; entry 14). -/
def execLossOfAlignment (p : Port) (s : State) : Host.Outcome State Fault Refusal :=
  .next (match (s.port p).link with
    | .up n => if lossRun ≤ n + 1 then s.leaveUp p else s
    | _ => s)

/-- END_OF_QUIET_PERIOD: the timebase reaches the quiet-until value (R104, R107). -/
def execEndOfQuietPeriod (p : Port) (s : State) : Host.Outcome State Fault Refusal :=
  if (s.port p).quietUntil = some s.timebase then
    let t := s.updPort p (fun y => { y with quietUntil := none })
    .next (match (s.port p).link with
      | .down => if (s.port p).signal then t.setLink p (.sync 0) else t
      | _ => t)
  else .next s

/-- IDLE_CODE_GROUP: the one that makes the idle run of a SYNC port 32 is alignment achieved (R103). -/
def execIdleCodeGroup (p : Port) (s : State) : Host.Outcome State Fault Refusal :=
  .next (match (s.port p).link with
    | .down => s
    | .sync n => if alignmentRun ≤ n + 1 then s.becomeUp p else s.setLink p (.sync (n + 1))
    | .up _ => s.setLink p (.up 0))

/-- INVALID_CODE_GROUP: it breaks the idle run of a SYNC port; on an UP port it marks the frame being received damaged,
and the one that makes the invalid run 4 is loss of alignment (R103, R111). -/
def execInvalidCodeGroup (p : Port) (s : State) : Host.Outcome State Fault Refusal :=
  .next (match (s.port p).link with
    | .down => s
    | .sync _ => s.setLink p (.sync 0)
    | .up n => if lossRun ≤ n + 1 then s.leaveUp p else (s.setLink p (.up (n + 1))).reachReceiver p .invalid)

/-- A valid group other than idle, which an UP link carries to the receiver (R103, R110, R111, R114). -/
def State.lineGroup (p : Port) (g : LineGroup) (s : State) : State :=
  let t := s.validGroup p
  if (t.port p).link.isUp then t.reachReceiver p g else t

/-- START_OF_FRAME (R110, R116, R117). -/
def execStartOfFrame (p : Port) (s : State) : Host.Outcome State Fault Refusal := .next (s.lineGroup p .start)

/-- DATA_BYTE (R111 to R113). -/
def execDataByte (p : Port) (b : Byte) (s : State) : Host.Outcome State Fault Refusal := .next (s.lineGroup p (.data b))

/-- END_OF_FRAME (R114 to R116, R68): a good frame is handed to admission, whose steps follow as events of their own. -/
def execEndOfFrame (p : Port) (upsets : List Upset) (s : State) : Host.Outcome State Fault Refusal :=
  .next ((s.strike upsets).lineGroup p .finish)

end Sys2Proof.Machine
end

