-- ==== Sys2Proof/Machine/Egress.lean ====
section
/-! DEFINITION. The transmitters (chapter 5): the meanings of the take attempt and of the events of a transmission. -/

namespace Sys2Proof.Machine

open Sys2Proof

/-! ## The end of a transmission (R92 to R94) -/

/-- A frame's end on the line, in one event: the transmitter's release, IDLE, and the port's take attempt (R92, R94,
R99). -/
def State.endTransmission (p : Port) (r : RecordNo) (s : State) : State :=
  ((s.release r).setTransmitter p .idle).takeAttempt p

/-- TRAFFIC/LOST_BY_CHECK (R101). -/
def State.lostByCheck (p : Port) (r : RecordNo) (d : DequeNo) (c : CellNo) (chain : Option Byte) (s : State) : State :=
  s.report { code := .lostByCheck, port := some p, deque := some d, summary := s.summaryOf r, cell := some c,
             chain := chain }

/-- A poisoned end after the detection of the uncorrected cell `c`: record, release and take attempt (R94). -/
def State.poisonedEnd (p : Port) (r : RecordNo) (d : DequeNo) (c : CellNo) (chain : Option Byte) (s : State) : State :=
  ((s.setLineOut p (poisonedFrame (s.bytesBefore r c))).lostByCheck p r d c chain).endTransmission p r

/-- The transmitter reads the next `n` unread cells of its frame, each read with its detection (R93, R94, R186); whether
the frame has then ended with a poisoned end, and the state. -/
def State.readCells (p : Port) (r : RecordNo) (d : DequeNo) (unread : List CellNo) (n : Nat) (s : State) : Bool × State :=
  match State.checkedReads p d (s.summaryOf r) (unread.take n) s with
  | (some (c, chain), t) => (true, t.poisonedEnd p r d c chain)
  | (none, t) => (false, t.setTransmitter p (.sending r d (unread.drop n)))

/-- The read of cell `c`, in which the ECC finds the error `fault` at least, after those before it in the list; nothing
when the transmitter is not to read that cell any more (entries 5 and 21). -/
def State.readUpTo (p : Port) (c : CellNo) (fault : CellFault) (s : State) : State :=
  match (s.port p).transmitter with
  | .idle => s
  | .sending r d unread =>
    if c ∈ unread then ((s.strikeOne (.cell c fault)).readCells p r d unread (unread.idxOf c + 1)).2 else s

/-! ## The transmit side (R103) -/

/-- What a transmit side puts on its line. -/
inductive LineSends
  | frame | idleGroups | nothing
  deriving DecidableEq, Repr

/-- Idle code groups whenever no frame is being sent, in every link state; nothing during a quiet period (R103). -/
def State.lineSends (s : State) (p : Port) : LineSends :=
  match (s.port p).quietUntil, (s.port p).transmitter with
  | some _, _ => .nothing
  | none, .sending _ _ _ => .frame
  | none, .idle => .idleGroups

/-! ## The meanings -/

/-- TAKE_ATTEMPT (R87 to R91). -/
def execTakeAttempt (p : Port) (s : State) : Host.Outcome State Fault Refusal :=
  .next ((s.settle (.takeAttempt p)).takeAttempt p)

/-- TRANSMISSION_COMPLETE (R92): the cells not yet read have been read by then (entry 21); release, IDLE
and the take attempt are in this event (R99). -/
def execTransmissionComplete (p : Port) (s : State) : Host.Outcome State Fault Refusal :=
  .next (match (s.port p).transmitter with
    | .idle => s
    | .sending r d unread =>
      match s.readCells p r d unread unread.length with
      | (true, t) => t
      | (false, t) => (t.setLineOut p (completeFrame (t.sentBytes r))).endTransmission p r)

/-- CELL_READ_CORRECTED: a read of the transmitter whose error the ECC corrects (R93). -/
def execCellReadCorrected (p : Port) (c : CellNo) (s : State) : Host.Outcome State Fault Refusal :=
  .next (s.readUpTo p c .corrected)

/-- POISONED_END: a read of the transmitter whose error the ECC cannot correct (R94). -/
def execPoisonedEnd (p : Port) (c : CellNo) (s : State) : Host.Outcome State Fault Refusal :=
  .next (s.readUpTo p c .uncorrected)

end Sys2Proof.Machine
end

