-- ==== Sys2Proof/Machine/Notices.lean ====
section
/-! DEFINITION. Notices and the retry timer (9.5): the meanings of the delivery attempt, the placement and the timer. -/

namespace Sys2Proof.Machine

open Sys2Proof

/-- At most four records in one notice (R176). -/
def noticeRecords : Nat := 4

/-- The header of a notice (R176). -/
def noticeHeader (holder station : Address) (first : Byte) : Header where
  dest := holder
  src := station
  kind := .notice
  stop := false
  cls := 7
  hop := 15
  seq := first

/-- Whether a NOTICE_UNDELIVERED record is PENDING. -/
def ExcUnit.failurePending (u : ExcUnit) : Bool := u.pendingRecords.any (·.code = .noticeUndelivered)

/-- RESOURCE/NOTICE_UNDELIVERED after a failed delivery, unless one is PENDING (R178). -/
def State.noticeUndelivered (port : Port) (seqs : List Byte) (s : State) : State :=
  if s.exc.failurePending then s
  else s.report { code := .noticeUndelivered, port := some port, deque := some (controlDeque port), chain := seqs.head? }

/-- A delivery attempt that goes on: one NOTICE with the oldest PENDING records, or a failure (R176, R178). -/
def State.deliver (k : Claim) (s : State) : State :=
  let carried := s.exc.pendingRecords.take noticeRecords
  let seqs := carried.map (·.seq)
  match s.build (noticeHeader k.holder s.station (seqs.headD 0)) (noticePayload carried) with
  | some (r, t) => { t with exc := { t.exc with building := some ⟨r, k.holder, seqs⟩ } }.raise .noticePlacement
  | none => s.noticeUndelivered k.port seqs

/-- The conditions of R175: notices on, a holder, a PENDING record, no notice in building. -/
def State.deliveryAttempt (s : State) : State :=
  match s.claim, s.exc.building with
  | some k, none => if s.exc.notices && s.exc.pendingRecords != [] then s.deliver k else s
  | _, _ => s

/-- A further attempt follows while PENDING records remain (R175, R177). -/
def State.attemptAgain (s : State) : State :=
  if s.exc.pendingRecords = [] then s else s.raise .noticeDeliveryAttempt

/-- The unit drops the notice in building and releases its reference (R177). -/
def State.dropNotice (r : RecordNo) (s : State) : State :=
  { s with exc := { s.exc with building := none } }.release r

/-- The carried records become NOTIFIED, in the event of an ACCEPTED placement (R177, R179). -/
def State.notify (seqs : List Byte) (s : State) : State := State.syncTimer { s with exc := s.exc.notify seqs }

/-- Placement toward a holder who is still the destination (R177, R178). -/
def State.placeFor (k : Claim) (n : Building) (s : State) : State :=
  match s.arrive (controlDeque k.port) n.record .tail with
  | (.accepted, t) => ((t.notify n.seqs).dropNotice n.record).attemptAgain
  | (.alreadyPresent, t) => t.dropNotice n.record
  | (.dequeFull, t) => (t.dropNotice n.record).noticeUndelivered k.port n.seqs
  | (.dequeClosed, t) => (t.dropNotice n.record).noticeUndelivered k.port n.seqs

/-- The placement of the notice in building; set aside when its destination is not the holder (R177). -/
def State.placeNotice (n : Building) (s : State) : State :=
  match s.claim with
  | some k => if k.holder = n.dest then s.placeFor k n else (s.dropNotice n.record).attemptAgain
  | none => (s.dropNotice n.record).attemptAgain

/-! ## The meanings -/

/-- NOTICE_DELIVERY_ATTEMPT: the event that follows a trigger, and none without a trigger (R175, R176, R183; entry 5).
-/
def execNoticeDeliveryAttempt (s : State) : Host.Outcome State Fault Refusal :=
  .next (if .noticeDeliveryAttempt ∈ s.follow then (s.settle .noticeDeliveryAttempt).deliveryAttempt else s)

/-- NOTICE_PLACEMENT (R177, R178). -/
def execNoticePlacement (s : State) : Host.Outcome State Fault Refusal :=
  let t := s.settle .noticePlacement
  .next (match t.exc.building with
    | some n => t.placeNotice n
    | none => t)

/-- RETRY_TIMER_EXPIRY: the timebase reaches the retry stamp; a new stamp and a delivery attempt (R179). -/
def execRetryTimerExpiry (s : State) : Host.Outcome State Fault Refusal :=
  .next (if s.exc.retry = some s.timebase then
      { s with exc := { s.exc with retry := some (s.timebase + retryInterval) } }.raise .noticeDeliveryAttempt
    else s)

end Sys2Proof.Machine
end

