-- ==== Sys2Proof/Decode.lean ====
section
/-! DEFINITION. The command that an order of a list spells (R142), and the words of the opcode table. -/

namespace Sys2Proof

/-- The command of an order: its code names it, its operand bytes go with it, and a code of no row is UNKNOWN_ORDER
(R142). The two reads and the write of the table carry the damage that strikes the storage first; an order that the
engine reaches by itself carries none (entry 7). -/
def orderCommand (o : Order) : Instr :=
  match o.code.toNat with
  | 0x01 => .identify o.operands
  | 0x02 => .claim o.operands
  | 0x03 => .renew o.operands
  | 0x04 => .release o.operands
  | 0x05 => .setStation o.operands
  | 0x10 => .readEntry o.operands []
  | 0x11 => .writeEntry o.operands []
  | 0x12 => .freeEntry o.operands
  | 0x13 => .findEntry o.operands []
  | 0x14 => .readDefault o.operands
  | 0x15 => .writeDefault o.operands
  | 0x20 => .readDeque o.operands
  | 0x21 => .setDeque o.operands
  | 0x22 => .openDeque o.operands
  | 0x23 => .pauseDeque o.operands
  | 0x24 => .resumeDeque o.operands
  | 0x25 => .drainDeque o.operands
  | 0x30 => .readPort o.operands
  | 0x31 => .holdPort o.operands
  | 0x32 => .unholdPort o.operands
  | 0x33 => .retrainPort o.operands
  | 0x40 => .readExceptions o.operands
  | 0x41 => .ackExceptions o.operands
  | 0x42 => .setReporting o.operands
  | 0x50 => .readChecks o.operands
  | 0x51 => .clearChecks o.operands
  | 0x60 => .readPool o.operands
  | 0x70 => .resetTraffic o.operands
  | 0x71 => .resetFull o.operands
  | _ => .unknownOrder o.code o.operands

/-- The command a word of the opcode table spells: no row of the table gives bits, so none. -/
def decodeTableWord (_nbits _w : Nat) : Option Instr := none

end Sys2Proof
end

