-- ==== Sys2Proof/Machine/Engine.lean ====
section
/-! DEFINITION. The management engine (chapter 7): the take, the parse, how an order of a list is dealt with, drains,
the reply and the lease. -/

namespace Sys2Proof.Machine

open Sys2Proof

/-! ## The list (R125 to R127) -/

/-- The order at the position (R121). -/
def Job.current? (j : Job) : Option Order := j.orders[j.position - 1]?

/-- The frame summary of the engine's records: from the copy (R141). -/
def Job.summary (j : Job) : Summary := ⟨j.copy.dest, j.copy.src, j.copy.cls, j.copy.kind⟩

/-- The next order of the list begins, or the list is done and the reply is due (R122). -/
def State.advance (j : Job) (s : State) : State :=
  match j.orders[j.position]? with
  | some o => { s with engine := .executing { j with position := j.position + 1 } }.raise (orderCommand o)
  | none => { s with engine := .replying j .executed .build }.raise .replyBuild

/-- The result of the current order is added (R125). -/
def State.conclude (j : Job) (code : Byte) (status : Status) (data : List Byte) (s : State) : State :=
  s.advance { j with results := j.results ++ [⟨code, status, data⟩], dataUsed := j.dataUsed + data.length }

/-- What an order's checks and effect come to. -/
inductive Answer
  /-- A status and its data. -/
  | result (status : Status) (data : List Byte)
  /-- An accepted RESET-TRAFFIC or RESET-FULL (R127). -/
  | reset
  /-- A drain that must be waited for (R128). -/
  | wait
  deriving DecidableEq, Repr

/-- An order's own checks and effect, made in the engine's job. -/
abbrev Body := Job → State → Answer × State

/-- The bytes of a reply payload (R126). -/
def replyRoom : Nat := 1016

/-- The fixed parts of a list (R193). -/
def Job.fixedParts (j : Job) : Nat := 2 + 4 * j.orders.length

/-- The list end after a result: a failure under the stop flag ends the list (R127). -/
def Job.endAfter (j : Job) (status : Status) : Option ListEnd :=
  if status ≠ .ok ∧ status ≠ .noRoom ∧ j.copy.stop then some .stop else none

/-- The order's own checks and effect, after the list-end test and the room test. -/
def State.runBody (j : Job) (code : Byte) (body : Body) (s : State) : State :=
  match body j s with
  | (.result status data, t) => t.conclude { j with listEnd := j.endAfter status } code status data
  | (.reset, t) => t.conclude { j with listEnd := some .reset, orderFrame := none } code .ok []
  | (.wait, t) => { t with engine := .drainWait j }

/-- The list-end test, the room test on the order's greatest data length, then the order itself (R125, R126). -/
def State.deal (j : Job) (code : Byte) (greatest : Nat) (body : Body) (s : State) : State :=
  match j.listEnd with
  | some .noRoom => s.conclude j code .noRoom []
  | some .stop => s.conclude j code .skipped []
  | some .reset => s.conclude j code .skipped []
  | none =>
    if replyRoom < j.dataUsed + greatest + j.fixedParts then
      s.conclude { j with listEnd := some .noRoom } code .noRoom []
    else s.runBody j code body

/-- An order command: it is dealt with when it is the order at the engine's position, and at no other time (entry 6). -/
def State.dealOrder (o : Order) (greatest : Nat) (body : Body) (s : State) : State :=
  let t := s.settle (orderCommand o)
  match t.engine with
  | .executing j => if j.current? = some o then t.deal j o.code greatest body else t
  | _ => t

/-! ## Checks (R143) and groups (R132) -/

def refuse (status : Status) (s : State) : Answer × State := (.result status [], s)

def accept (data : List Byte) (s : State) : Answer × State := (.result .ok data, s)

/-- The holder's address, while a holder exists (R131). -/
def State.holder? (s : State) : Option Address := s.claim.map (·.holder)

/-- The claim group of CLAIM: checks 1 to 3 (R132, R143). -/
def notBroadcast (body : Body) : Body := fun j s =>
  match j.role with
  | .broadcast => refuse .notPermitted s
  | .own => body j s

/-- The write group, RENEW and RELEASE: checks 3 and 4 (R132, R143). -/
def holderOnly (body : Body) : Body := notBroadcast fun j s =>
  if s.holder? = some j.copy.src then body j s else refuse .notHolder s

/-- A wrong operand length (R143 step 2). -/
def badLength : Body := fun _ s => refuse .badLength s

/-! ## Drains (R45, R47, R128) -/

/-- The DRAIN-DEQUE that the engine waits for completes with its removed count (R128). -/
def State.drainComplete (removed : Nat) (s : State) : State :=
  match s.engine with
  | .drainWait j =>
    match j.current? with
    | some o => s.conclude j o.code .ok [BitVec.ofNat 8 removed]
    | none => s
  | _ => s

/-- The state a drain ends in (R47). -/
def DrainTarget.state : DrainTarget → DequeState
  | .detached => .detached
  | .active => .active

/-- The state of deque `d` set. -/
def State.setDequeState (d : DequeNo) (x : DequeState) (s : State) : State := s.setDeque d { s.deque d with state := x }

/-- One removal; the one that empties the deque completes the drain (R45, R47). -/
def State.drainRemoval (d : DequeNo) (s : State) : State :=
  match (s.deque d).state, (s.deque d).entries with
  | .draining target removed, [r] =>
    let t := (s.setDeque d { s.deque d with entries := [], state := target.state }).release r
    (t.offer d).drainComplete (removed + 1)
  | .draining target removed, r :: r' :: rest =>
    ((s.setDeque d { s.deque d with entries := r' :: rest, state := .draining target (removed + 1) }).release r).raise
      (.drainRemoval d)
  | _, _ => s

/-! ## The reply (R129, R130, R137) -/

/-- Class and hop budget of a reply, with the copy's source as destination and its sequence (R129). -/
def replyHeader (j : Job) (station : Address) : Header where
  dest := j.copy.src
  src := station
  kind := .reply
  stop := false
  cls := 7
  hop := 15
  seq := j.copy.seq

/-- RESOURCE/REPLY_UNDELIVERED (R141). -/
def State.replyUndelivered (j : Job) (s : State) : State :=
  s.report { code := .replyUndelivered, port := some j.copy.port, deque := some (controlDeque j.copy.port),
             summary := some j.summary }

/-- Reply memory releases its reply, if it holds one. -/
def State.releaseStored (k : Claim) (s : State) : State :=
  match k.replyMemory with
  | some r => s.release r
  | none => s

/-- Reply memory's reference to a new reply, if there is one. -/
def State.addStored (new : Option RecordNo) (s : State) : State :=
  match new with
  | some r => s.addRef r
  | none => s

/-- Last sequence, holder port and reply memory for a holder's own frame (R137). -/
def State.updateReplyMemory (j : Job) (new : Option RecordNo) (s : State) : State :=
  match s.claim, j.role with
  | some k, .own =>
    if k.holder = j.copy.src then
      { (s.releaseStored k).addStored new with
        claim := some { k with lastSeq := some j.copy.seq, port := j.copy.port, replyMemory := new } }
    else s
  | _, _ => s

/-- A reply, old or new, is appended to the control deque of the arrival port (R130, R138). -/
def State.placeReply (j : Job) (r : RecordNo) (s : State) : State :=
  match s.arrive (controlDeque j.copy.port) r .tail with
  | (.accepted, t) => t
  | (.alreadyPresent, t) => t
  | (.dequeFull, t) => t.replyUndelivered j
  | (.dequeClosed, t) => t.replyUndelivered j

/-- The engine releases its order frame, if it still holds one, and becomes IDLE; a frame in intake is the next work
(R122, R130 step 4). -/
def State.finish (j : Job) (s : State) : State :=
  let t := match j.orderFrame with
    | some r => s.release r
    | none => s
  let u := { t with engine := .idle }
  if (u.deque intake).entries = [] then u else u.raise (.engineTake [])

/-- The engine goes on to another step of R130, which is an event of its own. -/
def State.replyNext (j : Job) (status : FrameStatus) (next : ReplyStep) (s : State) : State :=
  { s with engine := .replying j status next }.raise .replyBuild

/-- Step 1: the build, or REPLY_UNDELIVERED and on with no reply. -/
def State.buildStep (j : Job) (status : FrameStatus) (s : State) : State :=
  match s.build (replyHeader j s.station) (replyPayload status j.results) with
  | some (r, t) => t.replyNext j status (.memory (some r))
  | none => (s.replyUndelivered j).replyNext j status (.memory none)

/-- Step 2: reply memory; with no reply to place, step 4 is next. -/
def State.memoryStep (j : Job) (status : FrameStatus) (new : Option RecordNo) (s : State) : State :=
  (s.updateReplyMemory j new).replyNext j status (match new with | some r => .placement r | none => .release none)

/-- Step 3: the placement. -/
def State.placementStep (j : Job) (status : FrameStatus) (r : RecordNo) (s : State) : State :=
  (s.placeReply j r).replyNext j status (.release (some r))

/-- Step 4: the releases, and IDLE. -/
def State.releaseStep (j : Job) (new : Option RecordNo) (s : State) : State :=
  match new with
  | some r => (s.release r).finish j
  | none => s.finish j

/-- The next of the four steps of R130, one event. -/
def State.replyStep (j : Job) (status : FrameStatus) (next : ReplyStep) (s : State) : State :=
  match next with
  | .build => s.buildStep j status
  | .memory new => s.memoryStep j status new
  | .placement r => s.placementStep j status r
  | .release new => s.releaseStep j new

/-- A reply that does not enter reply memory: the short reply of R138. -/
def State.replayLost (j : Job) (s : State) : State :=
  match s.build (replyHeader j s.station) (replyPayload .replayLost []) with
  | some (r, t) => ((t.placeReply j r).release r).finish j
  | none => (s.replyUndelivered j).finish j

/-! ## The take and the parse (R123, R124, R138) -/

/-- The copy of an order frame's header (R121, R123). -/
def copyOf (h : Header) (p : Port) : FrameCopy := ⟨h.src, h.dest, h.cls, h.kind, h.seq, h.stop, p⟩

/-- The frame role (R123). -/
def roleOf (dest : Address) : Role := if dest = 4095 then .broadcast else .own

/-- The job at the take. -/
def newJob (r : RecordNo) (h : Header) (p : Port) : Job where
  orderFrame := some r
  copy := copyOf h p
  role := roleOf h.dest
  orders := []
  position := 0
  results := []
  dataUsed := 0
  listEnd := none

/-- The retransmission test (R138). -/
def State.isRetransmission (j : Job) (s : State) : Bool :=
  match s.claim with
  | some k => decide (j.role = .own ∧ k.holder = j.copy.src ∧ k.lastSeq = some j.copy.seq)
  | none => false

/-- A retransmission: the holder port moves, and the stored reply is appended again, or a short reply is built (R138).
-/
def State.replay (j : Job) (s : State) : State :=
  match s.claim with
  | none => s
  | some k =>
    let t := { s with claim := some { k with port := j.copy.port } }
    match k.replyMemory with
    | some r => (t.placeReply j r).finish j
    | none => t.replayLost j

/-- The cells read for the first `n` payload bytes. -/
def HeldFrame.cellsOfPayload (h : HeldFrame) (n : Nat) : List CellNo := if n = 0 then [] else h.cells.take (cellsFor (8 + n))

/-- The cells the parse reads unless an uncorrected error stops it (R124). How far a malformed list is read on, behind
the bytes that show the malformation, is a free value where it could be seen (entry 9). -/
def State.parseCells (s : State) (h : HeldFrame) (payload : List Byte) : List CellNo :=
  match framePayload payload with
  | .list _ => h.cellsOfPayload payload.length
  | .malformed why seen readOn =>
    let near := h.cellsOfPayload seen
    let far := h.cellsOfPayload readOn
    if (far.drop near.length).all (fun c => s.eccOf c = .sound) then near
    else h.cellsOfPayload (min readOn (seen + Config.parseReadsOn why))

/-- A frame that executes no order goes to REPLYING with an empty results list (R124). -/
def State.replyWith (j : Job) (status : FrameStatus) (s : State) : State :=
  s.replyNext j status .build

/-- A record of the parse (R141). -/
def State.parseReport (j : Job) (code : ExcCode) (cell : Option CellNo) (chain : Option Byte) (s : State) : State :=
  s.report { code := code, port := some j.copy.port, deque := some intake, summary := some j.summary, cell := cell,
             chain := chain }

/-- The parse and its three outcomes (R124). -/
def State.parse (j : Job) (h : HeldFrame) (s : State) : State :=
  let payload := readStored h.cells s.mem 8 (h.length - 8)
  match State.checkedReads j.copy.port intake (some j.summary) (s.parseCells h payload) s with
  | (some (c, chain), t) => (t.parseReport j .orderAbandoned (some c) chain).replyWith j .abandoned
  | (none, t) =>
    match framePayload payload with
    | .malformed _ _ _ => (t.parseReport j .orderMalformed none none).replyWith j .malformed
    | .list orders => t.advance { j with orders := orders }

/-- The take of the head of intake by an IDLE engine (R123). -/
def State.engineTake (s : State) : State :=
  match s.engine, (s.deque intake).entries with
  | .idle, r :: rest =>
    match s.held? r with
    | some h =>
      match h.origin with
      | .port p =>
        let t := s.setDeque intake { s.deque intake with entries := rest }
        let j := newJob r h.header p
        if t.isRetransmission j then t.replay j else t.parse j h
      | .internal => s
    | none => s
  | _, _ => s

/-! ## The lease (R136) -/

/-- The claim record is cleared and reply memory lets go (R135, R136). -/
def State.clearClaim (k : Claim) (s : State) : State := State.syncTimer { s.releaseStored k with claim := none }

/-! ## The meanings -/

/-- DRAIN_REMOVAL (R45 to R47). -/
def execDrainRemoval (d : DequeNo) (s : State) : Host.Outcome State Fault Refusal :=
  .next ((s.settle (.drainRemoval d)).drainRemoval d)

/-- ENGINE_TAKE (R123, R124, R138). -/
def execEngineTake (upsets : List Upset) (s : State) : Host.Outcome State Fault Refusal :=
  .next ((s.strike upsets).settle (.engineTake [])).engineTake

/-- REPLY_BUILD: one of the four events of R130, from the build to IDLE (R129, R130, R137; entry 2). -/
def execReplyBuild (s : State) : Host.Outcome State Fault Refusal :=
  let t := s.settle .replyBuild
  .next (match t.engine with
    | .replying j status next => t.replyStep j status next
    | _ => t)

/-- LEASE_EXPIRY: the timebase reaches the expiry stamp (R136). -/
def execLeaseExpiry (s : State) : Host.Outcome State Fault Refusal :=
  .next (match s.claim with
    | some k =>
      if k.expiry = s.timebase then
        (s.clearClaim k).report { code := .claimExpired, port := some k.port }
      else s
    | none => s)

end Sys2Proof.Machine
end

