-- ==== Sys2Proof/Machine/OrdersChecks.lean ====
section
/-! DEFINITION. Exception, check and pool orders (8.6, R165). -/

namespace Sys2Proof.Machine

open Sys2Proof

/-! ## Exceptions (R161 to R163, R182) -/

/-- Count and records, oldest first (R161). -/
def ExcUnit.bytes (u : ExcUnit) : List Byte :=
  BitVec.ofNat 8 u.records.length :: u.records.flatMap ExceptionRecord.bytes

def readExceptionsBody (ops : List Byte) : Body :=
  match ops with
  | [] => fun _ s => accept s.exc.bytes s
  | _ => badLength

/-- READ-EXCEPTIONS (R161, R182). -/
def execReadExceptions (ops : List Byte) (s : State) : Host.Outcome State Fault Refusal :=
  .next (s.dealOrder ⟨0x40, ops⟩ 321 (readExceptionsBody ops))

/-- Every record at or before `a` is freed (R182). -/
def State.acknowledge (a : Byte) (s : State) : State :=
  State.syncTimer { s with exc := s.exc.retain (fun r => !atOrBefore a r.seq) }

/-- How many records an acknowledgement frees. -/
def ExcUnit.freedBy (u : ExcUnit) (a : Byte) : Nat := (u.records.filter (fun r => atOrBefore a r.seq)).length

def ackExceptionsBody (ops : List Byte) : Body :=
  match ops with
  | [a] => holderOnly fun _ s => accept [BitVec.ofNat 8 (s.exc.freedBy a)] (s.acknowledge a)
  | _ => badLength

/-- ACK-EXCEPTIONS (R162, R182). -/
def execAckExceptions (ops : List Byte) (s : State) : Host.Outcome State Fault Refusal :=
  .next (s.dealOrder ⟨0x41, ops⟩ 1 (ackExceptionsBody ops))

/-- Mask, level and notices choice are replaced together (R163). -/
def State.setReporting (m : ClassMask) (level : Fin 4) (notices : Bool) (s : State) : State :=
  { s with exc := { s.exc with mask := m, notices := notices }, check := { s.check with level := level } }

def setReportingBody (ops : List Byte) : Body :=
  match ops with
  | [mask, level, notices] => holderOnly fun _ s =>
    match maskOperand mask, levelOperand level, boolOperand notices with
    | some m, some l, some n => accept [] (s.setReporting m l n)
    | _, _, _ => refuse .badOperand s
  | _ => badLength

/-- SET-REPORTING (R163). -/
def execSetReporting (ops : List Byte) (s : State) : Host.Outcome State Fault Refusal :=
  .next (s.dealOrder ⟨0x42, ops⟩ 0 (setReportingBody ops))

/-! ## Checks (R164, R190) -/

/-- CELL 1, ENTRY 2, absent 0 (11.4). -/
def locationBytes : Option Location → List Byte
  | none => [0, 0xFF, 0xFF]
  | some (.ce c) => 1 :: be16 (BitVec.ofNat 16 c.val)
  | some (.ue c) => 1 :: be16 (BitVec.ofNat 16 c.val)
  | some (.tp i) => 2 :: be16 (BitVec.ofNat 16 i.val)

def CheckMonitor.bytes (m : CheckMonitor) : List Byte :=
  (0#5 ++ (BitVec.ofBool m.tp ++ (BitVec.ofBool m.ue ++ BitVec.ofBool m.ce))) :: locationBytes m.location ++
    [BitVec.ofNat 8 m.level.val]

def readChecksBody (ops : List Byte) : Body :=
  match ops with
  | [] => fun _ s => accept s.check.bytes s
  | _ => badLength

/-- READ-CHECKS (R164, R190). -/
def execReadChecks (ops : List Byte) (s : State) : Host.Outcome State Fault Refusal :=
  .next (s.dealOrder ⟨0x50, ops⟩ 5 (readChecksBody ops))

/-- The check record is emptied; the level stays (R190). -/
def State.clearChecks (s : State) : State := { s with check := ⟨false, false, false, none, s.check.level⟩ }

def clearChecksBody (ops : List Byte) : Body :=
  match ops with
  | [] => holderOnly fun _ s => accept [] s.clearChecks
  | _ => badLength

/-- CLEAR-CHECKS (R164, R190). -/
def execClearChecks (ops : List Byte) (s : State) : Host.Outcome State Fault Refusal :=
  .next (s.dealOrder ⟨0x51, ops⟩ 0 (clearChecksBody ops))

/-! ## The pool (R66, R165) -/

/-- Free cells, free records, the two reserves (R66, R165). -/
def State.poolBytes (s : State) : List Byte :=
  be16 (BitVec.ofNat 16 s.freeCells.length) ++ be16 (BitVec.ofNat 16 s.freeRecords.length) ++
    [BitVec.ofNat 8 cellReserve, BitVec.ofNat 8 recordReserve]

def readPoolBody (ops : List Byte) : Body :=
  match ops with
  | [] => fun _ s => accept s.poolBytes s
  | _ => badLength

/-- READ-POOL (R66, R165). -/
def execReadPool (ops : List Byte) (s : State) : Host.Outcome State Fault Refusal :=
  .next (s.dealOrder ⟨0x60, ops⟩ 6 (readPoolBody ops))

end Sys2Proof.Machine
end

