-- ==== Sys2Proof/Machine/OrdersClaim.lean ====
section
/-! DEFINITION. Station and claim orders (8.2, 7.5). -/

namespace Sys2Proof.Machine

open Sys2Proof

/-! ## IDENTIFY (R148) -/

def partCode : BitVec 16 := 0x0428

def revision : Byte := 1

/-- Holder and lease remaining; 0xFFFF and 0 when there is no holder (R148, 11.4). -/
def State.claimBytes (s : State) : List Byte :=
  match s.claim with
  | some k => addressBytes k.holder ++ [secondsLeft s.timebase k.expiry]
  | none => [0xFF, 0xFF, 0]

def identifyBody (ops : List Byte) : Body :=
  match ops with
  | [] => fun _ s =>
    accept (be16 partCode ++ [revision] ++ addressBytes s.station ++ s.claimBytes ++ be32 s.timebase) s
  | _ => badLength

/-- IDENTIFY (R148). -/
def execIdentify (ops : List Byte) (s : State) : Host.Outcome State Fault Refusal :=
  .next (s.dealOrder ⟨0x01, ops⟩ 12 (identifyBody ops))

/-! ## CLAIM (R133, R149) -/

/-- The source becomes holder: MANAGEMENT/CLAIM_TAKEN, and the exception unit is told (R133, R175, R179). -/
def State.takeClaim (j : Job) (lease : Byte) (s : State) : State :=
  let t := { s with claim := some ⟨j.copy.src, leaseEnd s.timebase lease, j.copy.port, none, none⟩ }
  ((t.report { code := .claimTaken, port := some j.copy.port, summary := some j.summary }).syncTimer).raise
    .noticeDeliveryAttempt

/-- A new expiry stamp and the holder port; last sequence and reply memory are kept (R133, R134). -/
def State.renewClaim (k : Claim) (j : Job) (lease : Byte) (s : State) : State :=
  { s with claim := some { k with expiry := leaseEnd s.timebase lease, port := j.copy.port } }

def claimBody (ops : List Byte) : Body :=
  match ops with
  | [lease] => notBroadcast fun j s =>
    if lease = 0 then refuse .badOperand s
    else
      match s.claim with
      | none => accept (addressBytes j.copy.src ++ [lease]) (s.takeClaim j lease)
      | some k =>
        if k.holder = j.copy.src then accept (addressBytes j.copy.src ++ [lease]) (s.renewClaim k j lease)
        else (.result .claimedByOther s.claimBytes, s)
  | _ => badLength

/-- CLAIM (R133, R149). -/
def execClaim (ops : List Byte) (s : State) : Host.Outcome State Fault Refusal :=
  .next (s.dealOrder ⟨0x02, ops⟩ 3 (claimBody ops))

/-! ## RENEW and RELEASE (R134, R135, R150) -/

def renewBody (ops : List Byte) : Body :=
  match ops with
  | [lease] => holderOnly fun j s =>
    if lease = 0 then refuse .badOperand s
    else
      match s.claim with
      | some k => accept [lease] (s.renewClaim k j lease)
      | none => refuse .notHolder s
  | _ => badLength

/-- RENEW (R134, R150). -/
def execRenew (ops : List Byte) (s : State) : Host.Outcome State Fault Refusal :=
  .next (s.dealOrder ⟨0x03, ops⟩ 1 (renewBody ops))

def releaseBody (ops : List Byte) : Body :=
  match ops with
  | [] => holderOnly fun _ s =>
    match s.claim with
    | some k => accept [] (s.clearClaim k)
    | none => refuse .notHolder s
  | _ => badLength

/-- RELEASE (R135, R150). -/
def execRelease (ops : List Byte) (s : State) : Host.Outcome State Fault Refusal :=
  .next (s.dealOrder ⟨0x04, ops⟩ 0 (releaseBody ops))

/-! ## SET-STATION (R151) -/

/-- An address a station may have: 0 to 4094 (R151). -/
def stationOperand (hi lo : Byte) : Option Address :=
  match addressField hi lo with
  | some a => if a = 4095 then none else some a
  | none => none

def setStationBody (ops : List Byte) : Body :=
  match ops with
  | [hi, lo] => holderOnly fun _ s =>
    match stationOperand hi lo with
    | some a => accept (addressBytes s.station) { s with station := a }
    | none => refuse .badOperand s
  | _ => badLength

/-- SET-STATION (R151). -/
def execSetStation (ops : List Byte) (s : State) : Host.Outcome State Fault Refusal :=
  .next (s.dealOrder ⟨0x05, ops⟩ 2 (setStationBody ops))

/-! ## Unknown orders (R142, R143) -/

def unknownBody : Body := fun _ s => refuse .unknownOrder s

/-- UNKNOWN_ORDER: an order whose code matches no row of R142; a known code is no unknown order (entry 5). -/
def execUnknownOrder (code : Byte) (ops : List Byte) (s : State) : Host.Outcome State Fault Refusal :=
  .next (if orderCommand ⟨code, ops⟩ = .unknownOrder code ops then s.dealOrder ⟨code, ops⟩ 0 unknownBody else s)

end Sys2Proof.Machine
end

