-- ==== Sys2Proof/Machine/OrdersDeque.lean ====
section
/-! DEFINITION. Deque orders (8.4, 2.6, 2.7). -/

namespace Sys2Proof.Machine

open Sys2Proof

/-- Deques 28 to 31 (R28). -/
def isFixed (d : DequeNo) : Bool := 28 ≤ d.val

/-! ## READ-DEQUE (R43, R156) -/

/-- The age of the head; 0xFFFFFFFF for an empty deque (R43, 11.4). -/
def State.headAge (s : State) (d : DequeNo) : BitVec 32 :=
  match (s.deque d).entries with
  | [] => 0xFFFFFFFF
  | r :: _ =>
    match s.held? r with
    | some h => s.timebase - h.stamp
    | none => 0xFFFFFFFF

/-- The 14 bytes of R156. -/
def State.dequeBytes (s : State) (d : DequeNo) : List Byte :=
  let q := s.deque d
  let c := q.config
  [BitVec.ofNat 8 d.val, c.binding.code, (c.priority.map (fun v => BitVec.ofNat 8 v.val)).getD 0xFF, c.limit,
    c.policy.code] ++ be16 c.dwell ++
  [(c.retain.map boolByte).getD 0xFF, q.state.code, BitVec.ofNat 8 q.entries.length] ++ be32 (s.headAge d)

def readDequeBody (ops : List Byte) : Body :=
  match ops with
  | [deque] => fun _ s =>
    match dequeOperand deque with
    | some d => accept (s.dequeBytes d) s
    | none => refuse .badIndex s
  | _ => badLength

/-- READ-DEQUE (R43, R156). -/
def execReadDeque (ops : List Byte) (s : State) : Host.Outcome State Fault Refusal :=
  .next (s.dealOrder ⟨0x20, ops⟩ 14 (readDequeBody ops))

/-! ## SET-DEQUE (R40, R157) -/

/-- The limit operand: 1 to 255 (R40). -/
def limitOperand (b : Byte) : Option Byte := if b = 0 then none else some b

/-- The whole configuration, or nothing when a field breaks R40. -/
def configOperand (binding priority limit policy dwell1 dwell0 retain : Byte) : Option DequeConfig :=
  match bindingOperand binding, priorityOperand priority, limitOperand limit, policyOperand policy, boolOperand retain with
  | some b, some p, some l, some c, some r => some ⟨b, some p, l, c, half dwell1 dwell0, some r⟩
  | _, _, _, _, _ => none

def setDequeBody (ops : List Byte) : Body :=
  match ops with
  | [deque, binding, priority, limit, policy, dwell1, dwell0, retain] => holderOnly fun _ s =>
    match dequeOperand deque, configOperand binding priority limit policy dwell1 dwell0 retain with
    | none, _ => refuse .badIndex s
    | some _, none => refuse .badOperand s
    | some d, some c =>
      if isFixed d then refuse .fixedDeque s
      else if (s.deque d).state = DequeState.detached then accept [] (s.setDeque d { s.deque d with config := c })
      else refuse .wrongState s
  | _ => badLength

/-- SET-DEQUE (R40, R157). -/
def execSetDeque (ops : List Byte) (s : State) : Host.Outcome State Fault Refusal :=
  .next (s.dealOrder ⟨0x21, ops⟩ 0 (setDequeBody ops))

/-! ## OPEN-, PAUSE- and RESUME-DEQUE (R41, R42, R157, R158) -/

/-- A state order of one deque operand: index, fixed deque, state, then the change (R143). -/
def stateOrder (ops : List Byte) (allowed : Deque → Bool) (change : DequeNo → State → State) : Body :=
  match ops with
  | [deque] => holderOnly fun _ s =>
    match dequeOperand deque with
    | none => refuse .badIndex s
    | some d =>
      if isFixed d then refuse .fixedDeque s
      else if allowed (s.deque d) then accept [] (change d s) else refuse .wrongState s
  | _ => badLength

/-- A DETACHED deque with a port binding becomes ACTIVE and is offered (R39, R41). -/
def openDequeBody (ops : List Byte) : Body :=
  stateOrder ops (fun q => q.state = .detached && q.config.binding ≠ .unbound)
    (fun d s => (s.setDequeState d .active).offer d)

/-- OPEN-DEQUE (R41, R157). -/
def execOpenDeque (ops : List Byte) (s : State) : Host.Outcome State Fault Refusal :=
  .next (s.dealOrder ⟨0x22, ops⟩ 0 (openDequeBody ops))

def pauseDequeBody (ops : List Byte) : Body :=
  stateOrder ops (fun q => q.state = .active) (fun d s => s.setDequeState d .paused)

/-- PAUSE-DEQUE (R42, R158). -/
def execPauseDeque (ops : List Byte) (s : State) : Host.Outcome State Fault Refusal :=
  .next (s.dealOrder ⟨0x23, ops⟩ 0 (pauseDequeBody ops))

def resumeDequeBody (ops : List Byte) : Body :=
  stateOrder ops (fun q => q.state = .paused) (fun d s => (s.setDequeState d .active).offer d)

/-- RESUME-DEQUE (R39, R42, R158). -/
def execResumeDeque (ops : List Byte) (s : State) : Host.Outcome State Fault Refusal :=
  .next (s.dealOrder ⟨0x24, ops⟩ 0 (resumeDequeBody ops))

/-! ## DRAIN-DEQUE (R44, R159) -/

/-- Whether a drain of this deque with this target may start: ACTIVE needs a port (R44); a deque already DRAINING does
not occur, and is refused (entry 19). -/
def Deque.mayDrain (q : Deque) (target : DrainTarget) : Bool :=
  (match q.state with | .draining _ _ => false | _ => true) &&
    (match target with | .active => q.config.binding ≠ .unbound | .detached => true)

/-- An accepted drain: at once on an empty deque, else DRAINING, with the removals as events of their own (R44, R45). An
empty deque drained to ACTIVE that was ACTIVE already makes no offer: R39 says both 'becoming ACTIVE' and 'a drain
completing to ACTIVE', and the model takes the first (DESIGN CHOICE, entry 24). -/
def State.startDrain (d : DequeNo) (target : DrainTarget) (s : State) : Answer × State :=
  if (s.deque d).entries = [] then
    let t := s.setDequeState d target.state
    accept [0] (if (s.deque d).state = .active then t else t.offer d)
  else (.wait, (s.setDequeState d (.draining target 0)).raise (.drainRemoval d))

def drainDequeBody (ops : List Byte) : Body :=
  match ops with
  | [deque, target] => holderOnly fun _ s =>
    match dequeOperand deque, targetOperand target with
    | none, _ => refuse .badIndex s
    | some _, none => refuse .badOperand s
    | some d, some t =>
      if isFixed d then refuse .fixedDeque s
      else if (s.deque d).mayDrain t then s.startDrain d t else refuse .wrongState s
  | _ => badLength

/-- DRAIN-DEQUE (R44, R128, R159). -/
def execDrainDeque (ops : List Byte) (s : State) : Host.Outcome State Fault Refusal :=
  .next (s.dealOrder ⟨0x25, ops⟩ 1 (drainDequeBody ops))

end Sys2Proof.Machine
end

