-- ==== Sys2Proof/Machine/OrdersPort.lean ====
section
/-! DEFINITION. Port orders (8.5, chapter 6). -/

namespace Sys2Proof.Machine

open Sys2Proof

def LinkState.code : LinkState → Byte
  | .down => 0
  | .sync _ => 1
  | .up _ => 2

def Transmitter.code : Transmitter → Byte
  | .idle => 0
  | .sending _ _ _ => 1

def Receiver.code : Receiver → Byte
  | .idle => 0
  | .receiving _ => 1
  | .discarding => 2

/-- Port, link state, held flag, transmitter state, receiver state (R119, R160). -/
def State.portBytes (s : State) (p : Port) : List Byte :=
  [p.code, (s.port p).link.code, boolByte (s.port p).held, (s.port p).transmitter.code, (s.port p).receiver.code]

def readPortBody (ops : List Byte) : Body :=
  match ops with
  | [port] => fun _ s =>
    match portOperand port with
    | some p => accept (s.portBytes p) s
    | none => refuse .badIndex s
  | _ => badLength

/-- READ-PORT (R119, R160). -/
def execReadPort (ops : List Byte) (s : State) : Host.Outcome State Fault Refusal :=
  .next (s.dealOrder ⟨0x30, ops⟩ 5 (readPortBody ops))

/-- A write order of one port operand: checks 1 to 5, then its effect (R160). -/
def portOrder (ops : List Byte) (effect : Port → State → State) : Body :=
  match ops with
  | [port] => holderOnly fun _ s =>
    match portOperand port with
    | some p => accept [] (effect p s)
    | none => refuse .badIndex s
  | _ => badLength

def State.setHeld (p : Port) (b : Bool) (s : State) : State := s.updPort p (fun y => { y with held := b })

def holdPortBody (ops : List Byte) : Body := portOrder ops (fun p s => s.setHeld p true)

/-- HOLD-PORT (R98, R108). -/
def execHoldPort (ops : List Byte) (s : State) : Host.Outcome State Fault Refusal :=
  .next (s.dealOrder ⟨0x31, ops⟩ 0 (holdPortBody ops))

/-- The held flag is cleared, and the scheduler makes its take attempt in the event (R108). -/
def unholdPortBody (ops : List Byte) : Body := portOrder ops (fun p s => (s.setHeld p false).takeAttempt p)

/-- UNHOLD-PORT (R98, R108). -/
def execUnholdPort (ops : List Byte) (s : State) : Host.Outcome State Fault Refusal :=
  .next (s.dealOrder ⟨0x32, ops⟩ 0 (unholdPortBody ops))

/-- The quiet period (R107). -/
def quietPeriod : Stamp := 2000

/-- The link goes through detection again (R107). -/
def State.retrain (p : Port) (s : State) : State :=
  let t := match (s.port p).link with
    | .up _ => s.leaveUp p
    | .sync _ => s.setLink p .down
    | .down => s
  t.updPort p (fun y => { y with quietUntil := some (s.timebase + quietPeriod) })

def retrainPortBody (ops : List Byte) : Body := portOrder ops State.retrain

/-- RETRAIN-PORT (R107, R160). -/
def execRetrainPort (ops : List Byte) (s : State) : Host.Outcome State Fault Refusal :=
  .next (s.dealOrder ⟨0x33, ops⟩ 0 (retrainPortBody ops))

end Sys2Proof.Machine
end

