-- ==== Sys2Proof/Machine/OrdersTable.lean ====
section
/-! DEFINITION. Steering table orders (8.3, 1.5, 1.6). -/

namespace Sys2Proof.Machine

open Sys2Proof

/-! ## READ-ENTRY (R12, R152) -/

def EntryBody.code : EntryBody → Byte
  | .free => 0
  | .valid _ => 1
  | .suspect _ => 2

def versionBytes (v : Version) : List Byte := be16 v

def indexBytes (i : EntryNo) : List Byte := be16 (BitVec.ofNat 16 i.val)

/-- The result of a read of entry `i` as it stands: 5 bytes for a FREE entry, 16 otherwise (R152). -/
def State.entryBytes (s : State) (i : EntryNo) : List Byte :=
  indexBytes i ++ [(s.entry i).body.code] ++ versionBytes (s.entry i).version ++
    ((s.entry i).body.stored?.map Stored.bytes).getD []

/-- The parity check of a READ-ENTRY; a failure makes or leaves the entry SUSPECT and is reported (R12). -/
def State.checkEntry (i : EntryNo) (reader : Port) (s : State) : State :=
  match (s.entry i).body.stored? with
  | some (.damaged b) => s.markSuspect i (.damaged b) reader none
  | _ => s

def readEntryBody (ops : List Byte) : Body :=
  match ops with
  | [hi, lo] => fun j s =>
    match entryOperand hi lo with
    | some i =>
      let t := s.checkEntry i j.copy.port
      accept (t.entryBytes i) t
    | none => refuse .badIndex s
  | _ => badLength

/-- READ-ENTRY (R12, R21, R152). -/
def execReadEntry (ops : List Byte) (upsets : List Upset) (s : State) : Host.Outcome State Fault Refusal :=
  .next ((s.strike upsets).dealOrder ⟨0x10, ops⟩ 16 (readEntryBody ops))

/-! ## WRITE-ENTRY (R13 to R17, R154) -/

/-- The lowest index of another VALID entry whose key overlaps `k` (R16). -/
def State.conflict (s : State) (i : EntryNo) (k : Key) : Option EntryNo :=
  (List.finRange 512).find? (fun n => n ≠ i && (match (s.entry n).body with | .valid x => x.overlaps k | _ => false))

/-- The content operand of a WRITE-ENTRY (R14, R194). -/
def contentOperand (key : Option Key) (d : Option Disposition) : Option Content :=
  match key, d with
  | some k, some d => some ⟨k, d⟩
  | _, _ => none

/-- Version, then key conflict, then the write (R15 to R17). -/
def State.writeEntry (i : EntryNo) (expected : Version) (c : Content) (s : State) : Answer × State :=
  let v := (s.entry i).version
  if expected ≠ v then (.result .versionMismatch (versionBytes v), s)
  else
    match s.conflict i c.key with
    | some n => (.result .conflict (indexBytes n), s)
    | none => accept (versionBytes (v + 1)) (s.setEntry i ⟨v + 1, .valid (.sound c)⟩)

def writeEntryBody (ops : List Byte) : Body :=
  match ops with
  | [i1, i0, v1, v0, d1, d0, classes, ports, action, count, t0, t1, t2, insertion, hop] => holderOnly fun _ s =>
    match entryOperand i1 i0,
        contentOperand (keyOperand d1 d0 classes ports) (dispositionOperand action count t0 t1 t2 insertion hop) with
    | none, _ => refuse .badIndex s
    | some _, none => refuse .badOperand s
    | some i, some c => s.writeEntry i (half v1 v0) c
  | _ => badLength

/-- WRITE-ENTRY (R13 to R17, R154). -/
def execWriteEntry (ops : List Byte) (upsets : List Upset) (s : State) : Host.Outcome State Fault Refusal :=
  .next ((s.strike upsets).dealOrder ⟨0x11, ops⟩ 2 (writeEntryBody ops))

/-! ## FREE-ENTRY (R18, R155) -/

def State.freeEntry (i : EntryNo) (expected : Version) (s : State) : Answer × State :=
  let v := (s.entry i).version
  if expected ≠ v then (.result .versionMismatch (versionBytes v), s)
  else accept (versionBytes (v + 1)) (s.setEntry i ⟨v + 1, .free⟩)

def freeEntryBody (ops : List Byte) : Body :=
  match ops with
  | [i1, i0, v1, v0] => holderOnly fun _ s =>
    match entryOperand i1 i0 with
    | none => refuse .badIndex s
    | some i => s.freeEntry i (half v1 v0)
  | _ => badLength

/-- FREE-ENTRY (R18, R155). -/
def execFreeEntry (ops : List Byte) (s : State) : Host.Outcome State Fault Refusal :=
  .next (s.dealOrder ⟨0x12, ops⟩ 2 (freeEntryBody ops))

/-! ## FIND-ENTRY (R12, R21, R153) -/

/-- The index of the match, or 0xFFFF for DEFAULT (11.4). -/
def EntryUsed.bytes : EntryUsed → List Byte
  | .keyed i => indexBytes i
  | .default _ => [0xFF, 0xFF]

def classOperand (b : Byte) : Option (BitVec 3) := if b.toNat < 8 then some (b.setWidth 3) else none

def findEntryBody (ops : List Byte) : Body :=
  match ops with
  | [d1, d0, cls, port] => fun j s =>
    match portOperand port, addressField d1 d0, classOperand cls with
    | none, _, _ => refuse .badIndex s
    | some p, some d, some c =>
      match s.lookup d c p j.copy.port none with
      | (x, t) => accept x.used.bytes t
    | some _, _, _ => refuse .badOperand s
  | _ => badLength

/-- FIND-ENTRY (R12, R21, R153). -/
def execFindEntry (ops : List Byte) (upsets : List Upset) (s : State) : Host.Outcome State Fault Refusal :=
  .next ((s.strike upsets).dealOrder ⟨0x13, ops⟩ 2 (findEntryBody ops))

/-! ## READ-DEFAULT and WRITE-DEFAULT (R19, R21, R152, R155) -/

def readDefaultBody (ops : List Byte) : Body :=
  match ops with
  | [port] => fun _ s =>
    match portOperand port with
    | some p => accept (p.code :: (versionBytes (s.defaults.get p).version ++ (s.defaults.get p).disposition.bytes)) s
    | none => refuse .badIndex s
  | _ => badLength

/-- READ-DEFAULT (R21, R152). -/
def execReadDefault (ops : List Byte) (s : State) : Host.Outcome State Fault Refusal :=
  .next (s.dealOrder ⟨0x14, ops⟩ 10 (readDefaultBody ops))

def State.writeDefault (p : Port) (expected : Version) (d : Disposition) (s : State) : Answer × State :=
  let v := (s.defaults.get p).version
  if expected ≠ v then (.result .versionMismatch (versionBytes v), s)
  else accept (versionBytes (v + 1)) { s with defaults := s.defaults.set p ⟨v + 1, d⟩ }

def writeDefaultBody (ops : List Byte) : Body :=
  match ops with
  | [port, v1, v0, action, count, t0, t1, t2, insertion, hop] => holderOnly fun _ s =>
    match portOperand port, dispositionOperand action count t0 t1 t2 insertion hop with
    | none, _ => refuse .badIndex s
    | some _, none => refuse .badOperand s
    | some p, some d => s.writeDefault p (half v1 v0) d
  | _ => badLength

/-- WRITE-DEFAULT (R19, R155). -/
def execWriteDefault (ops : List Byte) (s : State) : Host.Outcome State Fault Refusal :=
  .next (s.dealOrder ⟨0x15, ops⟩ 2 (writeDefaultBody ops))

end Sys2Proof.Machine
end

