-- ==== Sys2Proof/Machine/Reset.lean ====
section
/-! DEFINITION. Hard reset and the two order resets (R1, R22, R48, R49, R67, R84, R100, R120, R139, R140, R166, R167,
R183). -/

namespace Sys2Proof.Machine

open Sys2Proof

/-! ## Hard reset (R1) -/

/-- The straps as a station address; 4095 is no station address and is taken as 4094 (R1). -/
def strapAddress (straps : BitVec 12) : Address := if straps = 4095 then 4094 else straps

/-- HARD_RESET: every block at its hard-reset values; the queue of commands is not the part's (R1, R2). -/
def execHardReset (straps : BitVec 12) (s : State) : Host.Outcome State Fault Refusal :=
  .next { State.reset with
    straps := straps
    station := strapAddress straps
    freeDraws := s.freeDraws
    pending := s.pending }

/-! ## What both order resets do -/

/-- A frame cut short on an UP link ends with a poisoned end over the bytes sent, a free number of them (R100). Two
choices of the model (entry 10): the 8 header bytes are sent out before the end, so that the frame on the line is at
least 12 bytes as R94 says; and of a frame whose true CRC bytes have begun to leave, the model counts none of these as
sent, so that the frame on the line is the whole frame with its CRC complemented. -/
def State.resetTransmitter (p : Port) (s : State) : State :=
  match (s.port p).transmitter with
  | .idle => s
  | .sending r _ unread =>
    let least := max 8 (leastSent (s.cellsRead r unread))
    let sent := s.cutShort least (s.sendable r unread (s.sentBytes r))
    ((s.setLineOut p (poisonedFrame sent)).drawn).setTransmitter p .idle

/-- A RECEIVING receiver becomes DISCARDING (R120). -/
def State.resetReceiver (p : Port) (s : State) : State :=
  match (s.port p).receiver with
  | .receiving _ => s.setReceiver p .discarding
  | _ => s

/-- The port's part of an order reset (R84, R100, R120). The unit is IDLE, so an end of frame that waits for it is taken
next (R68; entry 25). -/
def State.resetPortTraffic (p : Port) (s : State) : State :=
  ((s.resetTransmitter p).resetReceiver p).setAdmission p .idle

/-- The pool returns to its initial state (R67). -/
def State.resetPool (s : State) : State :=
  { s with freeCells := allCells, freeRecords := allRecords, records := Vector.replicate 1024 .free }

/-- Every deque loses its entries (R49). -/
def State.emptyDeques (s : State) : State := { s with deques := s.deques.map (fun q => { q with entries := [] }) }

/-- Events owed for notices that the reset has ended (R183; entry 15). -/
def endedByReset : Instr → Bool
  | .noticeDeliveryAttempt => true
  | .noticePlacement => true
  | _ => false

def State.dropEnded (s : State) : State := { s with follow := s.follow.filter (fun c => !endedByReset c) }

/-- What RESET-TRAFFIC and RESET-FULL share. -/
def State.resetFrames (s : State) : State :=
  ((((s.resetPortTraffic .E).resetPortTraffic .W).resetPortTraffic .B).resetPool.emptyDeques).dropEnded

/-! ## RESET-TRAFFIC (R166) -/

/-- The claim keeps everything but reply memory (R139); NOTIFIED records return to PENDING, and the timer runs if it
must (R183). -/
def State.resetTraffic (s : State) : State :=
  let t := s.resetFrames
  State.syncTimer { t with
    claim := t.claim.map (fun k => { k with replyMemory := none })
    exc := { t.exc.unnotify with building := none } }

def resetTrafficBody (ops : List Byte) : Body :=
  match ops with
  | [] => holderOnly fun _ s => (.reset, s.resetTraffic)
  | _ => badLength

/-- RESET-TRAFFIC (R49, R166). -/
def execResetTraffic (ops : List Byte) (s : State) : Host.Outcome State Fault Refusal :=
  .next (s.dealOrder ⟨0x70, ops⟩ 0 (resetTrafficBody ops))

/-! ## RESET-FULL (R167) -/

/-- Markers at 27 and held flags clear (R85, R108). -/
def State.resetPortFull (p : Port) (s : State) : State :=
  s.updPort p (fun y => { y with held := false, markers := Vector.replicate 8 27 })

/-- Every block at its hard-reset values, but for station address, timebase, links and quiet periods (R167). -/
def State.resetFull (s : State) : State :=
  let t := ((s.resetFrames.resetPortFull .E).resetPortFull .W).resetPortFull .B
  { t with
    entries := resetEntries
    defaults := resetDefaults
    deques := resetDeques
    claim := none
    exc := resetExc
    check := resetCheck }

def resetFullBody (ops : List Byte) : Body :=
  match ops with
  | [] => holderOnly fun _ s => (.reset, s.resetFull)
  | _ => badLength

/-- RESET-FULL (R48, R167). -/
def execResetFull (ops : List Byte) (s : State) : Host.Outcome State Fault Refusal :=
  .next (s.dealOrder ⟨0x71, ops⟩ 0 (resetFullBody ops))

end Sys2Proof.Machine
end

