-- ==== Sys2Proof/Machine/Dispatch.lean ====
section
/-! DEFINITION. One arm per command. -/

namespace Sys2Proof.Machine

def exec (i : Instr) (s : State) : Host.Outcome State Fault Refusal :=
  match i with
  | .hardReset straps => Sys2Proof.Machine.execHardReset straps s
  | .signalDetected p => Sys2Proof.Machine.execSignalDetected p s
  | .lossOfSignal p => Sys2Proof.Machine.execLossOfSignal p s
  | .alignmentAchieved p => Sys2Proof.Machine.execAlignmentAchieved p s
  | .lossOfAlignment p => Sys2Proof.Machine.execLossOfAlignment p s
  | .endOfQuietPeriod p => Sys2Proof.Machine.execEndOfQuietPeriod p s
  | .startOfFrame p => Sys2Proof.Machine.execStartOfFrame p s
  | .dataByte p b => Sys2Proof.Machine.execDataByte p b s
  | .invalidCodeGroup p => Sys2Proof.Machine.execInvalidCodeGroup p s
  | .endOfFrame p upsets => Sys2Proof.Machine.execEndOfFrame p upsets s
  | .takeAttempt p => Sys2Proof.Machine.execTakeAttempt p s
  | .transmissionComplete p => Sys2Proof.Machine.execTransmissionComplete p s
  | .cellReadCorrected p c => Sys2Proof.Machine.execCellReadCorrected p c s
  | .poisonedEnd p c => Sys2Proof.Machine.execPoisonedEnd p c s
  | .drainRemoval d => Sys2Proof.Machine.execDrainRemoval d s
  | .engineTake upsets => Sys2Proof.Machine.execEngineTake upsets s
  | .replyBuild => Sys2Proof.Machine.execReplyBuild s
  | .leaseExpiry => Sys2Proof.Machine.execLeaseExpiry s
  | .retryTimerExpiry => Sys2Proof.Machine.execRetryTimerExpiry s
  | .noticeDeliveryAttempt => Sys2Proof.Machine.execNoticeDeliveryAttempt s
  | .noticePlacement => Sys2Proof.Machine.execNoticePlacement s
  | .identify ops => Sys2Proof.Machine.execIdentify ops s
  | .claim ops => Sys2Proof.Machine.execClaim ops s
  | .renew ops => Sys2Proof.Machine.execRenew ops s
  | .release ops => Sys2Proof.Machine.execRelease ops s
  | .setStation ops => Sys2Proof.Machine.execSetStation ops s
  | .readEntry ops upsets => Sys2Proof.Machine.execReadEntry ops upsets s
  | .writeEntry ops upsets => Sys2Proof.Machine.execWriteEntry ops upsets s
  | .freeEntry ops => Sys2Proof.Machine.execFreeEntry ops s
  | .findEntry ops upsets => Sys2Proof.Machine.execFindEntry ops upsets s
  | .readDefault ops => Sys2Proof.Machine.execReadDefault ops s
  | .writeDefault ops => Sys2Proof.Machine.execWriteDefault ops s
  | .readDeque ops => Sys2Proof.Machine.execReadDeque ops s
  | .setDeque ops => Sys2Proof.Machine.execSetDeque ops s
  | .openDeque ops => Sys2Proof.Machine.execOpenDeque ops s
  | .pauseDeque ops => Sys2Proof.Machine.execPauseDeque ops s
  | .resumeDeque ops => Sys2Proof.Machine.execResumeDeque ops s
  | .drainDeque ops => Sys2Proof.Machine.execDrainDeque ops s
  | .readPort ops => Sys2Proof.Machine.execReadPort ops s
  | .holdPort ops => Sys2Proof.Machine.execHoldPort ops s
  | .unholdPort ops => Sys2Proof.Machine.execUnholdPort ops s
  | .retrainPort ops => Sys2Proof.Machine.execRetrainPort ops s
  | .readExceptions ops => Sys2Proof.Machine.execReadExceptions ops s
  | .ackExceptions ops => Sys2Proof.Machine.execAckExceptions ops s
  | .setReporting ops => Sys2Proof.Machine.execSetReporting ops s
  | .readChecks ops => Sys2Proof.Machine.execReadChecks ops s
  | .clearChecks ops => Sys2Proof.Machine.execClearChecks ops s
  | .readPool ops => Sys2Proof.Machine.execReadPool ops s
  | .resetTraffic ops => Sys2Proof.Machine.execResetTraffic ops s
  | .resetFull ops => Sys2Proof.Machine.execResetFull ops s
  | .unknownOrder code ops => Sys2Proof.Machine.execUnknownOrder code ops s
  | .idleCodeGroup p => Sys2Proof.Machine.execIdleCodeGroup p s

end Sys2Proof.Machine
end

