-- ==== Sys2Proof/Machine/Clock.lean ====
section
/-! DEFINITION. What the block does with no command waiting: a tick of the timebase, an event it owes, a step of an
admission, or a group of a line that waits for its receiver (R2, R68, R82, R122; entries 1, 2, 3, 16 and 25). -/

namespace Sys2Proof.Machine

open Sys2Proof

/-- The lease ends now (R136). -/
def State.leaseDue (s : State) : List Instr := if s.claim.any (·.expiry = s.timebase) then [.leaseExpiry] else []

/-- The retry timer expires now (R179). -/
def State.retryDue (s : State) : List Instr := if s.exc.retry = some s.timebase then [.retryTimerExpiry] else []

/-- The quiet period of port `p` ends now (R107). -/
def State.quietDue (s : State) (p : Port) : List Instr :=
  if (s.port p).quietUntil = some s.timebase then [.endOfQuietPeriod p] else []

/-- The events at which the timebase reaches a stamp, in the model's order (entry 16). -/
def State.dueEvents (s : State) : List Instr :=
  s.leaseDue ++ s.retryDue ++ s.quietDue .E ++ s.quietDue .W ++ s.quietDue .B

/-- One microsecond (R2); the events due at the new value wait as commands. -/
def State.tick (s : State) : State :=
  let t := { s with timebase := s.timebase + 1 }
  { t with pending := t.dueEvents }

/-- What the block can do by itself. -/
inductive Work
  | tick
  | owed (c : Instr)
  | admission (p : Port)
  | line (p : Port)
  deriving DecidableEq, Repr

/-- A step of the admission of port `p`, while one is under way (R68). -/
def State.admissionWork (s : State) (p : Port) : List Work :=
  match (s.port p).admission with
  | .idle => []
  | .admitting _ => [.admission p]

/-- The first group that waits at port `p`, once the receiver can take it (R68). -/
def State.lineWork (s : State) (p : Port) : List Work :=
  match (s.port p).lineWaits with
  | [] => []
  | g :: _ => if (s.port p).takes g then [.line p] else []

/-- The end of frame that waits at port `p`, once the port's admission unit is IDLE: the event that follows the unit's
release takes it (R68). -/
def State.endWork (s : State) (p : Port) : List Work :=
  if (s.port p).lineWaits.head? = some .finish then s.lineWork p else []

/-- The ends of frame that the next event takes (R68). -/
def State.endsDue (s : State) : List Work := s.endWork .E ++ s.endWork .W ++ s.endWork .B

/-- The events the block can take next by itself, besides a tick. -/
def State.openWork (s : State) : List Work :=
  s.follow.map .owed ++ (s.admissionWork .E ++ s.admissionWork .W ++ s.admissionWork .B) ++
    (s.lineWork .E ++ s.lineWork .W ++ s.lineWork .B)

/-- One of the things the block can do by itself; an owed event taken is settled by its own meaning. -/
def State.doWork (w : Work) (s : State) : Host.Outcome State Fault Refusal :=
  match w with
  | .tick => .next s.tick
  | .owed c => exec c s
  | .admission p => .next (s.admitStep p)
  | .line p => .next (s.takeWaiting p)

/-- The one thing there is to do, or the one that a free value picks (0.5.7; entry 3). -/
def State.doOneOf (w : Work) (others : List Work) (s : State) : Host.Outcome State Fault Refusal :=
  match others with
  | [] => s.doWork w
  | _ => s.drawn.doWork ((w :: others).getD (Config.nextWork s.freeDraws % (others.length + 1)) w)

/-- On an empty queue: an end of frame that is due comes before everything else (R68); else a tick or one of the events
that are open (entry 3). -/
def State.idle (s : State) : Host.Outcome State Fault Refusal :=
  match s.endsDue with
  | [] => s.doOneOf .tick s.openWork
  | w :: ws => s.doOneOf w ws

end Sys2Proof.Machine
end

