-- ==== Sys2Proof/Safety.lean ====
section
/-! DEFINITION. The laws the manual states of the part, each as a predicate of one state. -/

namespace Sys2Proof.Machine

open Sys2Proof

/-! ## Memory and station -/

/-- The cell memory has its canonical form. -/
def MemoryLaw (s : State) : Prop := Memory.wf s.mem

/-- The station address is not the broadcast address (R1, R151). -/
def StationLaw (s : State) : Prop := s.station ≠ broadcast

/-! ## Steering table (R6) -/

/-- The key of an entry that is VALID and passes its parity check. -/
def EntryBody.soundKey? : EntryBody → Option Key
  | .valid (.sound c) => some c.key
  | _ => none

/-- No two VALID keyed entries have keys that overlap (R6); of entries whose content is undamaged (R10). -/
def TableLaw (s : State) : Prop :=
  ∀ i j : EntryNo, i ≠ j → ∀ k l : Key,
    (s.entry i).body.soundKey? = some k → (s.entry j).body.soundKey? = some l → k.overlaps l = false

/-! ## Deques (R25, R28) -/

/-- No record twice, no more entries than the limit, a DETACHED deque empty (R25). -/
def Deque.lawful (q : Deque) : Prop :=
  q.entries.Nodup ∧ q.entries.length ≤ q.config.limit.toNat ∧ (q.state = .detached → q.entries = [])

def DequeLaw (s : State) : Prop := ∀ d : DequeNo, (s.deque d).lawful

/-- Deques 28 to 31 are ACTIVE with their fixed configuration (R28). -/
def FixedLaw (s : State) : Prop :=
  ∀ d : DequeNo, 28 ≤ d.val → (s.deque d).config = (resetDequeConfig d).1 ∧ (s.deque d).state = .active

/-! ## Pool (R51, R53, R55) -/

/-- The cells a record lists; a FREE one lists none (R51). -/
def FrameRecord.cells : FrameRecord → List CellNo
  | .free => []
  | .receiving f => f.cells
  | .held h => h.cells

/-- The cells listed by frame records. -/
def State.listedCells (s : State) : List CellNo := s.records.toList.flatMap FrameRecord.cells

/-- Each cell stands in exactly one place, and the free-record queue holds exactly the FREE records, once each (R51,
R52, R53). -/
def PoolLaw (s : State) : Prop :=
  (s.freeCells ++ s.listedCells).Perm allCells ∧ s.freeRecords.Nodup ∧
    ∀ r : RecordNo, r ∈ s.freeRecords ↔ s.record r = .free

/-! ## References (R55, R61) -/

/-- 1 if the proposition holds. -/
def one (p : Prop) [Decidable p] : Nat := if p then 1 else 0

def Transmitter.holds (r : RecordNo) : Transmitter → Bool
  | .idle => false
  | .sending f _ _ => f = r

def AdmissionUnit.holds (r : RecordNo) : AdmissionUnit → Bool
  | .idle => false
  | .admitting a => a.frame = r

/-- The engine's job, while it has one. -/
def Engine.job? : Engine → Option Job
  | .idle => none
  | .executing j => some j
  | .drainWait j => some j
  | .replying j _ _ => some j

/-- The reply that a step of R130 has in hand. -/
def ReplyStep.reply? : ReplyStep → Option RecordNo
  | .build => none
  | .memory new => new
  | .placement r => some r
  | .release new => new

/-- The reply the engine has built and not yet released (R130). -/
def Engine.reply? : Engine → Option RecordNo
  | .replying _ _ next => next.reply?
  | _ => none

/-- References of port `p`. -/
def State.portRefs (s : State) (r : RecordNo) (p : Port) : Nat :=
  one ((s.port p).transmitter.holds r) + one ((s.port p).admission.holds r)

/-- How many deques hold the record. -/
def State.dequeRefs (s : State) (r : RecordNo) : Nat := s.deques.toList.countP (fun q => decide (r ∈ q.entries))

/-- The holders of a reference on record `r` (R61). -/
def State.refs (s : State) (r : RecordNo) : Nat :=
  s.dequeRefs r + s.portRefs r .E + s.portRefs r .W + s.portRefs r .B +
    one ((s.engine.job?.bind (·.orderFrame)) = some r) + one (s.engine.reply? = some r) +
    one (s.exc.building.map (·.record) = some r) + one ((s.claim.bind (·.replyMemory)) = some r)

/-- A record is HELD exactly when its count is at least 1, and the count is the number of its holders (R55). -/
def CountLaw (s : State) : Prop :=
  ∀ r : RecordNo,
    match s.record r with
    | .held h => 1 ≤ h.count ∧ h.count = s.refs r
    | _ => s.refs r = 0

/-! ## Frames (R54, R59, R102) -/

/-- Stored length 8 to 1024, and exactly the cells it needs (R54, R59). -/
def HeldLaw (s : State) : Prop :=
  ∀ r : RecordNo,
    match s.record r with
    | .held h => 8 ≤ h.length ∧ h.length ≤ 1024 ∧ h.cells.length = cellsFor h.length
    | _ => True

/-- A RECEIVING receiver: an UP link, the ranges of R102, and a RECEIVING record of its port with a cell for each 128
stored bytes begun (R56, R109). -/
def ReceiverLaw (s : State) : Prop :=
  ∀ p : Port,
    match (s.port p).receiver with
    | .receiving x =>
      (s.port p).link.isUp = true ∧ x.lineBytes ≤ 1028 ∧ x.window.length = min 4 x.lineBytes ∧
        (match s.record x.record with
        | .receiving f => f.port = p ∧ f.cells.length = cellsFor (x.lineBytes - 4)
        | _ => False)
    | _ => True

/-- Every RECEIVING record is the record of its port's receiver (R55). -/
def OwnerLaw (s : State) : Prop :=
  ∀ r : RecordNo,
    match s.record r with
    | .receiving f =>
      (match (s.port f.port).receiver with
      | .receiving x => x.record = r
      | _ => False)
    | _ => True

/-! ## Ports (R91, R102) -/

/-- A transmitter holds no frame while its link is not UP (R91). -/
def TransmitterLaw (s : State) : Prop :=
  ∀ p : Port, (s.port p).link.isUp = false → (s.port p).transmitter = .idle

/-- A SENDING transmitter holds a HELD record, and the cells it has not read are the last of those it is to read
(R91, R92). -/
def UnreadLaw (s : State) : Prop :=
  ∀ p : Port,
    match (s.port p).transmitter with
    | .idle => True
    | .sending r _ unread =>
      (match s.record r with
      | .held h => unread <:+ h.payloadCells
      | _ => False)

/-- The invalid run stays at 0 to 3, and the idle run below the 32 at which the link becomes UP (R102, R103). -/
def RunLaw (s : State) : Prop :=
  ∀ p : Port,
    match (s.port p).link with
    | .down => True
    | .sync n => n ≤ 31
    | .up n => n ≤ 3

/-- What an ADMITTING unit holds at each step: the lookup result after the lookup, on a steered path, and a next target
of 1 to 3 exactly while placing (R68). -/
def Admitting.lawful (a : Admitting) : Prop :=
  (a.nextTarget.isSome = true ↔ a.next = .place) ∧ (∀ k, a.nextTarget = some k → 1 ≤ k ∧ k ≤ mostTargets) ∧
    match a.next with
    | .append => a.path ≠ .steered ∧ a.result = none
    | .misdirect => a.path = .own ∧ a.result = none
    | .hopCheck => a.path ≠ .own ∧ a.result = none
    | .lookup => a.path ≠ .own ∧ a.result = none
    | .act => a.path ≠ .own ∧ a.result.isSome = true
    | .place => a.path ≠ .own ∧ a.result.isSome = true
    | .release => a.path = .own → a.result = none

/-- Every admission under way is lawful (R68). -/
def AdmissionLaw (s : State) : Prop :=
  ∀ p : Port,
    match (s.port p).admission with
    | .idle => True
    | .admitting a => a.lawful

/-- Groups wait for a receiver only behind an end of frame of an UP link (R68, R105, R115; entry 25). -/
def WaitingLaw (s : State) : Prop :=
  ∀ p : Port, (s.port p).lineWaits ≠ [] → (s.port p).link.isUp = true

/-! ## Engine (R121, R126) -/

/-- The bytes of result data so far. -/
def Job.dataBytes (j : Job) : Nat := (j.results.map (fun r => r.data.length)).sum

/-- A job whose list has been parsed: data used is the data of the results, one result for each order dealt with, and
the reply has room for what it holds (R121, R126). -/
def Job.lawful (j : Job) (dealt : Nat) : Prop :=
  j.orders.length ≤ 16 ∧ j.results.length = dealt ∧ j.dataUsed = j.dataBytes ∧ j.dataUsed + j.fixedParts ≤ replyRoom

def EngineLaw (s : State) : Prop :=
  match s.engine with
  | .idle => True
  | .executing j => 1 ≤ j.position ∧ j.position ≤ j.orders.length ∧ j.lawful (j.position - 1)
  | .drainWait j =>
    1 ≤ j.position ∧ j.position ≤ j.orders.length ∧ j.lawful (j.position - 1) ∧
      j.dataUsed + 1 + j.fixedParts ≤ replyRoom
  | .replying j status _ => if status = .executed then j.lawful j.orders.length else j.results = []

/-! ## Exception unit (R170, R179) and check monitor (R187) -/

/-- The creation list names the occupied slots once each, and their sequences are distinct (R170). -/
def ExceptionLaw (s : State) : Prop :=
  s.exc.creation.Nodup ∧ (∀ i : SlotNo, i ∈ s.exc.creation ↔ (s.exc.slot i).isSome = true) ∧
    (s.exc.records.map (·.seq)).Nodup

/-- The retry timer runs exactly while a record is PENDING and a holder exists (R179). -/
def TimerLaw (s : State) : Prop :=
  s.exc.retry.isSome = true ↔ (s.exc.pendingRecords ≠ [] ∧ s.claim.isSome = true)

/-- The severity of the most severe flag set; 0 when none is. -/
def CheckMonitor.top (m : CheckMonitor) : Nat := if m.ue then 3 else if m.tp then 2 else if m.ce then 1 else 0

/-- The location, when one is held, is of the most severe kind whose flag is set (R187); none is held when no flag is.
-/
def CheckLaw (s : State) : Prop := (s.check.location.map Location.severity).getD 0 = s.check.top

/-! ## Vocabulary of the statements -/

/-- Order `o` is at the engine's position, no list end is set, and its greatest result fits (R125, R126). -/
def OrderDue (s : State) (j : Job) (o : Order) (greatest : Nat) : Prop :=
  s.engine = .executing j ∧ j.current? = some o ∧ j.listEnd = none ∧
    j.dataUsed + greatest + j.fixedParts ≤ replyRoom

/-- The order frame is addressed to the bridge and comes from the holder (R132). -/
def FromHolder (s : State) (j : Job) : Prop := j.role = .own ∧ s.holder? = some j.copy.src

/-- The three groups of the holder test (R132). -/
inductive OrderGroup
  | read | claim | write
  deriving DecidableEq, Repr

/-- Group, operand length and greatest result data of a known order (R142). -/
def orderRow (code : Byte) : Option (OrderGroup × Nat × Nat) :=
  match code.toNat with
  | 0x01 => some (.read, 0, 12)
  | 0x02 => some (.claim, 1, 3)
  | 0x03 => some (.claim, 1, 1)
  | 0x04 => some (.claim, 0, 0)
  | 0x05 => some (.write, 2, 2)
  | 0x10 => some (.read, 2, 16)
  | 0x11 => some (.write, 15, 2)
  | 0x12 => some (.write, 4, 2)
  | 0x13 => some (.read, 4, 2)
  | 0x14 => some (.read, 1, 10)
  | 0x15 => some (.write, 10, 2)
  | 0x20 => some (.read, 1, 14)
  | 0x21 => some (.write, 8, 0)
  | 0x22 => some (.write, 1, 0)
  | 0x23 => some (.write, 1, 0)
  | 0x24 => some (.write, 1, 0)
  | 0x25 => some (.write, 2, 1)
  | 0x30 => some (.read, 1, 5)
  | 0x31 => some (.write, 1, 0)
  | 0x32 => some (.write, 1, 0)
  | 0x33 => some (.write, 1, 0)
  | 0x40 => some (.read, 0, 321)
  | 0x41 => some (.write, 1, 1)
  | 0x42 => some (.write, 3, 0)
  | 0x50 => some (.read, 0, 5)
  | 0x51 => some (.write, 0, 0)
  | 0x60 => some (.read, 0, 6)
  | 0x70 => some (.write, 0, 0)
  | 0x71 => some (.write, 0, 0)
  | _ => none

/-- Operand byte `n` of an order. -/
def operandByte (o : Order) (n : Nat) : Byte := o.operands.getD n 0

/-- Operand bytes `n` and `n + 1` as a number. -/
def operandNumber (o : Order) (n : Nat) : Nat := (half (operandByte o n) (operandByte o (n + 1))).toNat

/-- Check 5: an entry index above 511, a deque above 31, or a port byte other than 1, 2 and 3 (R146, R194). -/
def NoSuchIndex (o : Order) : Prop :=
  (o.code ∈ ([0x10, 0x11, 0x12] : List Byte) ∧ 511 < operandNumber o 0) ∨
  (o.code ∈ ([0x20, 0x21, 0x22, 0x23, 0x24, 0x25] : List Byte) ∧ 31 < (operandByte o 0).toNat) ∨
  (o.code ∈ ([0x14, 0x15, 0x30, 0x31, 0x32, 0x33] : List Byte) ∧ operandByte o 0 ∉ ([1, 2, 3] : List Byte)) ∨
  (o.code = 0x13 ∧ operandByte o 3 ∉ ([1, 2, 3] : List Byte))

/-- The disposition in operand bytes `n` to `n + 6` breaks R14 or has a byte that names no value (R194). -/
def WrongDisposition (o : Order) (n : Nat) : Prop :=
  let action := (operandByte o n).toNat
  let count := (operandByte o (n + 1)).toNat
  let target := fun i : Nat => operandByte o (n + 2 + i)
  2 < action ∨ 1 < (operandByte o (n + 5)).toNat ∨ 1 < (operandByte o (n + 6)).toNat ∨ 3 < count ∨
    (action = 0 ∧ count = 0) ∨ (action ≠ 0 ∧ count ≠ 0) ∨
    (∃ i, i < 3 ∧ i < count ∧ 27 < (target i).toNat) ∨
    (∃ i k, i < k ∧ k < 3 ∧ k < count ∧ target i = target k) ∨
    (∃ i, i < 3 ∧ count ≤ i ∧ target i ≠ 0xFF)

/-- Check 6: an operand value the order does not accept (R14, R40, R133, R134, R151, R153, R159, R163, R194). -/
def WrongValue (o : Order) : Prop :=
  let b := operandByte o
  (o.code ∈ ([0x02, 0x03] : List Byte) ∧ b 0 = 0) ∨
  (o.code = 0x05 ∧ 4094 < operandNumber o 0) ∨
  (o.code = 0x11 ∧ (4095 < operandNumber o 4 ∨ b 6 = 0 ∨ b 7 = 0 ∨ 7 < (b 7).toNat ∨ WrongDisposition o 8)) ∨
  (o.code = 0x13 ∧ (4095 < operandNumber o 0 ∨ 7 < (b 2).toNat)) ∨
  (o.code = 0x15 ∧ WrongDisposition o 3) ∨
  (o.code = 0x21 ∧ (3 < (b 1).toNat ∨ 7 < (b 2).toNat ∨ b 3 = 0 ∨ 2 < (b 4).toNat ∨ 1 < (b 7).toNat)) ∨
  (o.code = 0x25 ∧ 1 < (b 1).toNat) ∨
  (o.code = 0x42 ∧ ((b 0).getLsbD 0 = true ∨ (b 0).getLsbD 6 = true ∨ (b 0).getLsbD 7 = true ∨ 3 < (b 1).toNat ∨
    1 < (b 2).toNat))

/-- The greatest result data of any order; 0 for an unknown one (R142). -/
def greatestData (code : Byte) : Nat := ((orderRow code).map (fun r => r.2.2)).getD 0

/-- An UP link whose receiver takes the next group in the event in which it comes: none waits before it (R68; entry 25).
-/
def LinkReady (s : State) (p : Port) : Prop := (∃ n, (s.port p).link = .up n) ∧ (s.port p).lineWaits = []

/-- The steps that an admission makes if nothing comes between them. -/
def State.finishAdmission (p : Port) : Nat → State → State
  | 0, s => s
  | n + 1, s => State.finishAdmission p n (s.admitStep p)

/-- An end of frame waits first at port `p`, and the port's admission unit is IDLE: the next event takes it (R68). -/
def EndDue (s : State) (p : Port) : Prop :=
  (s.port p).admission = .idle ∧ (s.port p).lineWaits.head? = some .finish

/-- The command by which a group comes in on port `p`. -/
def LineGroup.command (p : Port) : LineGroup → Instr
  | .start => .startOfFrame p
  | .data b => .dataByte p b
  | .invalid => .invalidCodeGroup p
  | .finish => .endOfFrame p []

/-- The state with group `g` behind those that wait at port `p` already. -/
def State.waits (s : State) (p : Port) (g : LineGroup) : State :=
  s.setPort p { s.port p with lineWaits := (s.port p).lineWaits ++ [g] }

/-- A valid group other than idle on an UP link breaks the invalid run (R103). -/
def State.runBroken (s : State) (p : Port) : State := s.setLink p (.up 0)

/-- Port `p` receives into record `f` a frame whose four end checks pass and whose header is `h` (R114, R115). -/
def GoodFrame (s : State) (p : Port) (x : Reception) (f : ReceivingFrame) (h : Header) : Prop :=
  LinkReady s p ∧ (s.port p).admission = .idle ∧ (s.port p).receiver = .receiving x ∧
    s.record x.record = .receiving f ∧ f.port = p ∧ 12 ≤ x.lineBytes ∧ x.damaged = false ∧
    (let stored := readStored f.cells s.mem 0 (x.lineBytes - 4)
     crcBytes (crc stored) = x.window ∧ headerFormGood stored = true ∧
       payloadLengthField stored = stored.length - 8 ∧ Header.decode stored = some h)

/-- What a step leaves alone, whatever it does to ports, deques, records, free queues, exceptions and debts. -/
def SameElsewhere (s t : State) : Prop :=
  t.timebase = s.timebase ∧ t.straps = s.straps ∧ t.station = s.station ∧ t.entries = s.entries ∧
    t.defaults = s.defaults ∧ t.mem = s.mem ∧ t.ecc = s.ecc ∧ t.engine = s.engine ∧ t.claim = s.claim ∧
    t.check = s.check ∧ t.pending = s.pending

/-- How far the search of a level goes from its marker to a deque number: 0 for the next one, 27 for the marker itself
(R88). -/
def searchDistance (marker g : GeneralNo) : Nat := (g.val + 27 - marker.val) % 28

end Sys2Proof.Machine
end

