-- ==== Sys2Proof/WellFormed.lean ====
section
/-! DEFINITION. Which commands a sender may send: operand lists the wire can carry, unknown orders that are unknown, and
contents of the table that a WRITE-ENTRY could have written. -/

namespace Sys2Proof

/-- An operand length fits its byte (11.2). -/
def operandsFit (ops : List Byte) : Bool := ops.length ≤ 255

/-- The code matches no row of R142. -/
def codeUnknown (code : Byte) : Bool := decide (orderCommand ⟨code, []⟩ = .unknownOrder code [])

/-- FORWARD with 1 to 3 targets, none twice (R14). -/
def Action.legal : Action → Bool
  | .forward ts => decide (ts ≠ [] ∧ ts.length ≤ 3 ∧ ts.Nodup)
  | .discard => true
  | .discardReport => true

/-- Class set and port set are not empty (R14). -/
def Key.legal (k : Key) : Bool := decide (k.classes ≠ 0 ∧ k.ports ≠ 0)

/-- A content that passes the content check (R14). -/
def Content.legal (c : Content) : Bool := c.key.legal && c.disposition.action.legal

/-- Bits that pass the parity check are a legal content (R10, R14). -/
def Stored.legal : Stored → Bool
  | .sound c => c.legal
  | .damaged _ => true

def Upset.legal : Upset → Bool
  | .entry _ now => now.legal
  | .cell _ _ => true

/-- The commands a sender may send. -/
def Instr.wf : Instr → Bool
  | .endOfFrame _ us => us.all Upset.legal
  | .engineTake us => us.all Upset.legal
  | .identify ops => operandsFit ops
  | .claim ops => operandsFit ops
  | .renew ops => operandsFit ops
  | .release ops => operandsFit ops
  | .setStation ops => operandsFit ops
  | .readEntry ops us => operandsFit ops && us.all Upset.legal
  | .writeEntry ops us => operandsFit ops && us.all Upset.legal
  | .freeEntry ops => operandsFit ops
  | .findEntry ops us => operandsFit ops && us.all Upset.legal
  | .readDefault ops => operandsFit ops
  | .writeDefault ops => operandsFit ops
  | .readDeque ops => operandsFit ops
  | .setDeque ops => operandsFit ops
  | .openDeque ops => operandsFit ops
  | .pauseDeque ops => operandsFit ops
  | .resumeDeque ops => operandsFit ops
  | .drainDeque ops => operandsFit ops
  | .readPort ops => operandsFit ops
  | .holdPort ops => operandsFit ops
  | .unholdPort ops => operandsFit ops
  | .retrainPort ops => operandsFit ops
  | .readExceptions ops => operandsFit ops
  | .ackExceptions ops => operandsFit ops
  | .setReporting ops => operandsFit ops
  | .readChecks ops => operandsFit ops
  | .clearChecks ops => operandsFit ops
  | .readPool ops => operandsFit ops
  | .resetTraffic ops => operandsFit ops
  | .resetFull ops => operandsFit ops
  | .unknownOrder code ops => codeUnknown code && operandsFit ops
  | _ => true

end Sys2Proof
end

