-- ==== Sys2Proof/Certificates/Slice0/Obligations.lean ====
section
/-! DEFINITION. The statements for the provers. Where a next state is given as an equation, its right side names every
field the step changes, and so says that all else is unchanged. -/

section

open Sys2Proof Sys2Proof.Machine

/-! ## Queue, time and reset -/

/-- The command at the front of the queue is run on the state with the rest of the queue (the model's queue, entry 1).
-/
def Obligations.StepRunsTheFrontCommand : Prop :=
  ∀ (c : Instr) (rest : List Instr) (s : State),
    step { s with pending := c :: rest } = exec c { s with pending := rest }

/-- With no command waiting, no event owed, no admission under way and no group of a line waiting, the timebase ticks: 1
microsecond, and the events due at the new value are queued. An end of frame that waits first at a port whose admission
unit is IDLE is taken next, before anything else. Otherwise the block ticks, runs an owed event, makes one step of an
admission, or takes a group that waits; which of these is a free value (the model's choice, entries 1, 2, 3, 16 and 25).
-/
def Obligations.EmptyQueueStep : Prop :=
  (∀ s : State, ∃ due : List Instr, s.tick = { s with timebase := s.timebase + 1, pending := due } ∧
    (∀ c, c ∈ due ↔
      (c = .leaseExpiry ∧ ∃ k, s.claim = some k ∧ k.expiry = s.timebase + 1) ∨
      (c = .retryTimerExpiry ∧ s.exc.retry = some (s.timebase + 1)) ∨
      (∃ p, c = .endOfQuietPeriod p ∧ (s.port p).quietUntil = some (s.timebase + 1)))) ∧
  (∀ s : State, s.pending = [] → s.follow = [] → (∀ p, (s.port p).admission = .idle ∧ (s.port p).lineWaits = []) →
    step s = .next s.tick) ∧
  (∀ (s : State) (p : Port), s.pending = [] → EndDue s p → (∀ q, q ≠ p → ¬ EndDue s q) →
    step s = .next (s.takeWaiting p)) ∧
  (∀ s : State, s.pending = [] →
    let u := { s with freeDraws := s.freeDraws + 1 }
    (∀ p, EndDue s p →
      ∃ q, EndDue s q ∧ (step s = .next (s.takeWaiting q) ∨ step s = .next (u.takeWaiting q))) ∧
    ((∀ p, ¬ EndDue s p) →
      step s = .next s.tick ∨ step s = .next u.tick ∨ (∃ c ∈ s.follow, step s = exec c u) ∨
      (∃ p, (s.port p).admission ≠ .idle ∧ step s = .next (u.admitStep p)) ∨
      ∃ p g rest, (s.port p).lineWaits = g :: rest ∧ g ≠ .finish ∧ step s = .next (u.takeWaiting p)))

/-- No command faults or is refused, and none touches the queue, which is the model's own (entry 1). That an event has a
next state also where it cannot occur, and does nothing there, is the model's choice (entry 5). -/
def Obligations.NoCommandStops : Prop :=
  ∀ (c : Instr) (s : State), ∃ t, exec c s = .next t ∧ t.pending = s.pending

/-- HARD_RESET from any state, and the reset values of every block as the manual gives them; the count of free values
drawn is the model's own and runs on, and no group waits for a receiver (entry 25). -/
def Obligations.HardReset : Prop :=
  (∀ (straps : BitVec 12) (s : State),
      exec (.hardReset straps) s = .next
        { State.reset with
          straps := straps
          station := if straps = 4095 then 4094 else straps
          freeDraws := s.freeDraws
          pending := s.pending }) ∧
  let s := State.reset
  s.timebase = 0 ∧
  (∀ i : EntryNo, s.entry i = ⟨0, .free⟩) ∧
  s.defaults = ⟨⟨0, ⟨.forward [0], .tail, .decrement⟩⟩, ⟨0, ⟨.forward [1], .tail, .decrement⟩⟩,
    ⟨0, ⟨.discard, .tail, .decrement⟩⟩⟩ ∧
  s.deque 0 = ⟨⟨.port .W, some 0, 64, .refuse, 0, some true⟩, .active, []⟩ ∧
  s.deque 1 = ⟨⟨.port .E, some 0, 64, .refuse, 0, some true⟩, .active, []⟩ ∧
  (∀ d : DequeNo, 2 ≤ d.val → d.val ≤ 27 →
    s.deque d = ⟨⟨.unbound, some 0, 16, .refuse, 0, some false⟩, .detached, []⟩) ∧
  s.deque 28 = ⟨⟨.mgmt, none, 4, .refuse, 0, none⟩, .active, []⟩ ∧
  (∀ p : Port, s.deque (controlDeque p) = ⟨⟨.port p, some 8, 16, .refuse, 0, some true⟩, .active, []⟩) ∧
  s.freeCells = List.finRange 2048 ∧ s.freeRecords = List.finRange 1024 ∧ (∀ r : RecordNo, s.record r = .free) ∧
  (∀ p : Port, (s.port p).link = .down ∧ (s.port p).quietUntil = none ∧ (s.port p).signal = false ∧
    (s.port p).held = false ∧ (s.port p).receiver = .idle ∧ (s.port p).transmitter = .idle ∧
    (s.port p).admission = .idle ∧ (s.port p).lineWaits = [] ∧ ∀ v : Fin 8, s.marker p v = 27) ∧
  s.engine = .idle ∧ s.claim = none ∧
  (∀ i : SlotNo, s.exc.slot i = none) ∧ s.exc.creation = [] ∧ s.exc.counter = 0 ∧
  s.exc.mask = ⟨false, false, true, true, true⟩ ∧ s.exc.notices = true ∧ s.exc.retry = none ∧
  s.exc.building = none ∧
  s.check = ⟨false, false, false, none, 1⟩

/-- The station address: from the straps at hard reset, from an accepted SET-STATION, kept by the order resets (R1). -/
def Obligations.StationAddress : Prop :=
  (∀ (straps : BitVec 12) (s : State),
    ∃ t, exec (.hardReset straps) s = .next t ∧ t.station = if straps = 4095 then 4094 else straps) ∧
  (∀ (s : State) (j : Job) (hi lo : Byte) (a : Address),
    OrderDue s j ⟨0x05, [hi, lo]⟩ 2 → FromHolder s j → half hi lo = a.setWidth 16 → a ≠ 4095 →
    exec (.setStation [hi, lo]) s = .next
      (({ s with station := a }.settle (.setStation [hi, lo])).conclude j 0x05 .ok (addressBytes s.station))) ∧
  (∀ (s : State) (j : Job), OrderDue s j ⟨0x70, []⟩ 0 → FromHolder s j →
    ∃ t, exec (.resetTraffic []) s = .next t ∧ t.station = s.station) ∧
  (∀ (s : State) (j : Job), OrderDue s j ⟨0x71, []⟩ 0 → FromHolder s j →
    ∃ t, exec (.resetFull []) s = .next t ∧ t.station = s.station)

/-! ## Links and receivers -/

/-- Signal detected, loss of signal on a link that is not UP, alignment achieved, end of a quiet period; and what the
transmit side sends: nothing in a quiet period, else a frame while SENDING and idle code groups while IDLE, in every
link state. That a signal detected has the same effect when the signal is present already is the model's reading (entry
22), and so is that alignment is achieved at an idle run of 31, the group of the event being the thirty-second (entry
14). -/
def Obligations.LinkEvents : Prop :=
  (∀ (p : Port) (s : State),
    exec (.signalDetected p) s = .next (s.setPort p { s.port p with
      signal := true
      link := if (s.port p).link = .down ∧ (s.port p).quietUntil = none then .sync 0 else (s.port p).link })) ∧
  (∀ (p : Port) (s : State), (s.port p).link.isUp = false →
    exec (.lossOfSignal p) s = .next (s.setPort p { s.port p with signal := false, link := .down })) ∧
  (∀ (p : Port) (s : State), (s.port p).link = .sync 31 →
    exec (.alignmentAchieved p) s = .next
      (((s.setLink p (.up 0)).report { code := .linkUp, port := some p }).takeAttempt p)) ∧
  (∀ (p : Port) (s : State), (s.port p).quietUntil = some s.timebase →
    exec (.endOfQuietPeriod p) s = .next (s.setPort p { s.port p with
      quietUntil := none
      link := if (s.port p).link = .down ∧ (s.port p).signal = true then .sync 0 else (s.port p).link })) ∧
  (∀ (s : State) (p : Port),
    (∀ ends, (s.port p).quietUntil = some ends → s.lineSends p = .nothing) ∧
    ((s.port p).quietUntil = none → (s.port p).transmitter = .idle → s.lineSends p = .idleGroups) ∧
    (∀ r d unread, (s.port p).quietUntil = none → (s.port p).transmitter = .sending r d unread →
      s.lineSends p = .frame))

/-- A link that leaves UP, by loss of signal or by the fourth invalid group in a row: DOWN, transmitter and receiver
IDLE, and nothing else touched but deques, records, free queues, exceptions, the port's line output, the draw count and
debts; that groups which wait for the receiver are not seen any more is the model's choice (R115, entry 25). LINK_DOWN
is requested first; with no frame being sent, a frame being received is then TRUNCATED and its record and cells return
to the pool, and with none being received LINK_DOWN is the only record. (A frame being sent: AbortedTransmission.) -/
def Obligations.LinkLeavesUp : Prop :=
  (∀ (p : Port) (s : State) (n : Nat), (s.port p).link = .up n →
    ∃ t, exec (.lossOfSignal p) s = .next t ∧ (t.port p).link = .down ∧ (t.port p).signal = false ∧
      (t.port p).transmitter = .idle ∧ (t.port p).receiver = .idle ∧ (t.port p).lineWaits = [] ∧
      (t.port p).held = (s.port p).held ∧
      (t.port p).quietUntil = (s.port p).quietUntil ∧ (t.port p).markers = (s.port p).markers ∧
      (t.port p).admission = (s.port p).admission ∧ (∀ q, q ≠ p → t.port q = s.port q) ∧ SameElsewhere s t) ∧
  (∀ (p : Port) (s : State), (s.port p).link = .up 3 →
    ∃ t, exec (.lossOfAlignment p) s = .next t ∧ exec (.invalidCodeGroup p) s = .next t ∧ (t.port p).link = .down ∧
      (t.port p).signal = (s.port p).signal ∧ (t.port p).transmitter = .idle ∧ (t.port p).receiver = .idle ∧
      (t.port p).lineWaits = [] ∧ (t.port p).held = (s.port p).held ∧ (t.port p).quietUntil = (s.port p).quietUntil ∧
      (t.port p).markers = (s.port p).markers ∧ (t.port p).admission = (s.port p).admission ∧
      (∀ q, q ≠ p → t.port q = s.port q) ∧ SameElsewhere s t) ∧
  (∀ (p : Port) (s : State) (n : Nat), (s.port p).link = .up n → (s.port p).transmitter = .idle →
    let left := fun signal : Bool =>
      (s.setPort p { s.port p with signal := signal, link := .down, receiver := .idle, lineWaits := [] }).report
        { code := .linkDown, port := some p }
    let leaves := fun after : State → State =>
      exec (.lossOfSignal p) s = .next (after (left false)) ∧
        (n = 3 → exec (.lossOfAlignment p) s = .next (after (left (s.port p).signal)) ∧
          exec (.invalidCodeGroup p) s = .next (after (left (s.port p).signal)))
    ((∀ x, (s.port p).receiver ≠ .receiving x) → leaves id) ∧
    (∀ x f, (s.port p).receiver = .receiving x → s.record x.record = .receiving f →
      leaves (fun t => (t.report { code := .truncated, port := some p }).freeFrame x.record f.cells)))

/-- The runs of R103. SYNC: idle groups are counted, the thirty-second makes the link UP with LINK_UP and a take
attempt, and any other group sets the run back to 0. UP: invalid groups are counted and mark a frame being received
damaged (the mark of one that waits for the receiver: FailedEndOfFrame), and an idle group sets the run back to 0. DOWN:
no group does anything. -/
def Obligations.CodeGroupRuns : Prop :=
  (∀ (p : Port) (b : Byte) (s : State), (s.port p).link = .down →
    exec (.idleCodeGroup p) s = .next s ∧ exec (.invalidCodeGroup p) s = .next s ∧ exec (.startOfFrame p) s = .next s ∧
      exec (.dataByte p b) s = .next s ∧ exec (.endOfFrame p []) s = .next s) ∧
  (∀ (p : Port) (s : State) (n : Nat), (s.port p).link = .sync n → n < 31 →
    exec (.idleCodeGroup p) s = .next (s.setLink p (.sync (n + 1)))) ∧
  (∀ (p : Port) (s : State), (s.port p).link = .sync 31 →
    exec (.idleCodeGroup p) s = .next
      (((s.setLink p (.up 0)).report { code := .linkUp, port := some p }).takeAttempt p)) ∧
  (∀ (p : Port) (b : Byte) (s : State) (n : Nat), (s.port p).link = .sync n →
    exec (.invalidCodeGroup p) s = .next (s.setLink p (.sync 0)) ∧
      exec (.startOfFrame p) s = .next (s.setLink p (.sync 0)) ∧
      exec (.dataByte p b) s = .next (s.setLink p (.sync 0)) ∧
      exec (.endOfFrame p []) s = .next (s.setLink p (.sync 0))) ∧
  (∀ (p : Port) (s : State) (n : Nat), (s.port p).link = .up n →
    exec (.idleCodeGroup p) s = .next (s.runBroken p)) ∧
  (∀ (p : Port) (s : State) (n : Nat), (s.port p).link = .up n → n < 3 → (s.port p).lineWaits = [] →
    (∀ x, (s.port p).receiver ≠ .receiving x) →
    exec (.invalidCodeGroup p) s = .next (s.setLink p (.up (n + 1)))) ∧
  (∀ (p : Port) (s : State) (n : Nat) (x : Reception), (s.port p).link = .up n → n < 3 → (s.port p).lineWaits = [] →
    (s.port p).receiver = .receiving x →
    exec (.invalidCodeGroup p) s = .next
      ((s.setLink p (.up (n + 1))).setReceiver p (.receiving { x with damaged := true })))

/-- A start of frame: a record when more than 8 are free, else NO_RECORD and DISCARDING; a frame whose end was lost is
truncated first, and its record is free again before the new one is asked for. -/
def Obligations.StartOfFrame : Prop :=
  (∀ (p : Port) (s : State) (r : RecordNo) (rest : List RecordNo),
    LinkReady s p → (∀ x, (s.port p).receiver ≠ .receiving x) → s.freeRecords = r :: rest →
    8 < s.freeRecords.length →
    exec (.startOfFrame p) s = .next
      { ((s.runBroken p).setRecord r (.receiving ⟨[], p, s.timebase⟩)).setReceiver p (.receiving ⟨r, 0, false, []⟩) with
        freeRecords := rest }) ∧
  (∀ (p : Port) (s : State),
    LinkReady s p → (∀ x, (s.port p).receiver ≠ .receiving x) → s.freeRecords.length ≤ 8 →
    exec (.startOfFrame p) s = .next
      (((s.runBroken p).report { code := .noRecord, port := some p }).setReceiver p .discarding)) ∧
  (∀ (p : Port) (s : State) (x : Reception) (f : ReceivingFrame) (r : RecordNo) (rest : List RecordNo),
    LinkReady s p → (s.port p).receiver = .receiving x → s.record x.record = .receiving f →
    s.freeRecords ++ [x.record] = r :: rest → 8 < (r :: rest).length →
    exec (.startOfFrame p) s = .next
      { ((((s.runBroken p).report { code := .truncated, port := some p }).freeFrame x.record f.cells).setRecord r
          (.receiving ⟨[], p, s.timebase⟩)).setReceiver p (.receiving ⟨r, 0, false, []⟩) with
        freeRecords := rest }) ∧
  (∀ (p : Port) (s : State) (x : Reception) (f : ReceivingFrame),
    LinkReady s p → (s.port p).receiver = .receiving x → s.record x.record = .receiving f →
    s.freeRecords.length + 1 ≤ 8 →
    exec (.startOfFrame p) s = .next
      (((((s.runBroken p).report { code := .truncated, port := some p }).freeFrame x.record f.cells).report
        { code := .noRecord, port := some p }).setReceiver p .discarding))

/-- A data byte is counted and enters the window; the byte it pushes out is stored at the next stored position, with a
cell taken at each 128-byte boundary while more than 16 are free; no other byte of memory changes. -/
def Obligations.DataByteIsStored : Prop :=
  (∀ (p : Port) (b : Byte) (s : State), LinkReady s p → (∀ x, (s.port p).receiver ≠ .receiving x) →
    exec (.dataByte p b) s = .next (s.runBroken p)) ∧
  (∀ (p : Port) (b : Byte) (s : State) (x : Reception),
    LinkReady s p → (s.port p).receiver = .receiving x → x.lineBytes < 1028 → x.window.length < 4 →
    exec (.dataByte p b) s = .next ((s.runBroken p).setReceiver p
      (.receiving { x with lineBytes := x.lineBytes + 1, window := x.window ++ [b] }))) ∧
  (∀ (p : Port) (b : Byte) (s : State) (x : Reception) (f : ReceivingFrame) (w0 w1 w2 w3 : Byte) (k : Nat),
    LinkReady s p → (s.port p).receiver = .receiving x → x.lineBytes = k + 4 → x.lineBytes < 1028 →
    x.window = [w0, w1, w2, w3] → s.record x.record = .receiving f → k % 128 ≠ 0 →
    exec (.dataByte p b) s = .next
      { ((s.runBroken p).setEcc (cellAt f.cells k) .sound).setReceiver p
          (.receiving { x with lineBytes := k + 5, window := [w1, w2, w3, b] }) with
        mem := Memory.write s.mem (storedAddress f.cells k) w0 }) ∧
  (∀ (p : Port) (b : Byte) (s : State) (x : Reception) (f : ReceivingFrame) (w0 w1 w2 w3 : Byte) (k : Nat)
      (c : CellNo) (rest : List CellNo),
    LinkReady s p → (s.port p).receiver = .receiving x → x.lineBytes = k + 4 → x.lineBytes < 1028 →
    x.window = [w0, w1, w2, w3] → s.record x.record = .receiving f → k % 128 = 0 →
    s.freeCells = c :: rest → 16 < s.freeCells.length →
    exec (.dataByte p b) s = .next
      { (((s.runBroken p).setRecord x.record (.receiving { f with cells := f.cells ++ [c] })).setEcc
            (cellAt (f.cells ++ [c]) k) .sound).setReceiver p
          (.receiving { x with lineBytes := k + 5, window := [w1, w2, w3, b] }) with
        freeCells := rest
        mem := Memory.write s.mem (storedAddress (f.cells ++ [c]) k) w0 }) ∧
  (∀ (m : Memory) (a a' : Nat) (b : Byte), m.wf → (m.write a b).read a' = if a' = a then b else m.read a')

/-- A data byte that ends reception: a refused cell gives NO_CELL, line byte 1029 gives OVERLENGTH; the record and its
cells return to the pool and the receiver is DISCARDING. -/
def Obligations.DataByteEndsReception : Prop :=
  (∀ (p : Port) (b : Byte) (s : State) (x : Reception) (f : ReceivingFrame) (k : Nat),
    LinkReady s p → (s.port p).receiver = .receiving x → x.lineBytes = k + 4 → x.lineBytes < 1028 →
    x.window.length = 4 → s.record x.record = .receiving f → k % 128 = 0 → s.freeCells.length ≤ 16 →
    exec (.dataByte p b) s = .next
      ((((s.runBroken p).report { code := .noCell, port := some p }).freeFrame x.record f.cells).setReceiver p
        .discarding)) ∧
  (∀ (p : Port) (b : Byte) (s : State) (x : Reception) (f : ReceivingFrame),
    LinkReady s p → (s.port p).receiver = .receiving x → x.lineBytes = 1028 → s.record x.record = .receiving f →
    exec (.dataByte p b) s = .next
      ((((s.runBroken p).report { code := .overlength, port := some p }).freeFrame x.record f.cells).setReceiver p
        .discarding))

/-- The four end checks in their order: the first that fails names the FORMAT code, and the frame is returned; a
DISCARDING receiver becomes IDLE without a record. An end of frame that comes while the port's admission unit is
ADMITTING waits, and what comes behind it waits with it (R68; entry 25); the unit's steps bring it to IDLE; and a group
taken late is taken as one that comes: checks, record and hand-over are made there. -/
def Obligations.FailedEndOfFrame : Prop :=
  (∀ (p : Port) (s : State) (n : Nat), (s.port p).link = .up n →
    ((s.port p).lineWaits ≠ [] ∨ (s.port p).admission ≠ .idle) →
    exec (.endOfFrame p []) s = .next ((s.runBroken p).waits p .finish)) ∧
  (∀ (p : Port) (b : Byte) (s : State) (n : Nat), (s.port p).link = .up n → (s.port p).lineWaits ≠ [] →
    exec (.startOfFrame p) s = .next ((s.runBroken p).waits p .start) ∧
      exec (.dataByte p b) s = .next ((s.runBroken p).waits p (.data b)) ∧
      (n < 3 → exec (.invalidCodeGroup p) s = .next ((s.setLink p (.up (n + 1))).waits p .invalid))) ∧
  (∀ (p : Port) (s : State), ((s.finishAdmission p 8).port p).admission = .idle) ∧
  (∀ (p : Port) (s : State) (g : LineGroup) (rest : List LineGroup), (s.port p).lineWaits = g :: rest →
    (g = .finish → (s.port p).admission = .idle) →
    ∃ t, exec (g.command p) (s.setPort p { s.port p with link := .up 0, lineWaits := [] }) = .next t ∧
      s.takeWaiting p = t.setPort p { t.port p with link := (s.port p).link, lineWaits := rest }) ∧
  (∀ (p : Port) (s : State), LinkReady s p → (s.port p).admission = .idle →
    (∀ x, (s.port p).receiver ≠ .receiving x) →
    exec (.endOfFrame p []) s = .next ((s.runBroken p).setReceiver p .idle)) ∧
  (∀ (p : Port) (s : State) (x : Reception) (f : ReceivingFrame),
    LinkReady s p → (s.port p).admission = .idle → (s.port p).receiver = .receiving x →
    s.record x.record = .receiving f →
    let stored := readStored f.cells s.mem 0 (x.lineBytes - 4)
    let ends := fun (code : ExcCode) (summary : Option Summary) =>
      exec (.endOfFrame p []) s = .next
        ((((s.runBroken p).report { code := code, port := some p, summary := summary }).freeFrame x.record
          f.cells).setReceiver p .idle)
    (x.lineBytes < 12 → ends .runt none) ∧
    (12 ≤ x.lineBytes → (x.damaged = true ∨ crcBytes (crc stored) ≠ x.window) → ends .badCrc none) ∧
    (12 ≤ x.lineBytes → x.damaged = false → crcBytes (crc stored) = x.window → headerFormGood stored = false →
      ends .badHeader none) ∧
    (12 ≤ x.lineBytes → x.damaged = false → crcBytes (crc stored) = x.window → headerFormGood stored = true →
      payloadLengthField stored ≠ x.lineBytes - 12 →
      ends .lengthMismatch ((Header.decode stored).map Header.summary)))

/-! ## Admission -/

/-- The hand-over of a good frame: HELD with count 1, the receiver IDLE, the unit ADMITTING with the station address and
the path chosen. The append to intake of an own or broadcast ORDER frame: a reference of intake and an offer to the
engine when intake was empty, or INTAKE_FULL; an own frame is then released, a broadcast one goes on to its hop check.
An own ORDER frame whose steps have nothing between them ends HELD with count 1 at the tail of intake, whatever its hop
budget. -/
def Obligations.OwnOrderEntersIntake : Prop :=
  (∀ (s : State) (p : Port) (x : Reception) (f : ReceivingFrame) (h : Header), GoodFrame s p x f h →
    let path : Path :=
      if h.dest = s.station then .own else if h.dest = 4095 ∧ h.kind = Kind.order then .broadcastOrder else .steered
    let first : AdmitStep := match path with
      | .own => if h.kind = Kind.order then .append else .misdirect
      | .broadcastOrder => .append
      | .steered => .hopCheck
    exec (.endOfFrame p []) s = .next
      ((s.setRecord x.record (.held ⟨f.cells, x.lineBytes - 4, .port p, h, f.stamp, 1⟩)).setPort p
        { s.port p with
          link := .up 0
          receiver := .idle
          admission := .admitting ⟨x.record, s.station, path, none, none, first⟩ })) ∧
  (∀ (s : State) (p : Port) (a : Admitting) (h : HeldFrame), (s.port p).admission = .admitting a → a.next = .append →
    s.record a.frame = .held h → a.frame ∉ (s.deque intake).entries → (s.deque intake).state = .active →
    let q := s.deque intake
    let unit : AdmissionUnit := .admitting { a with next := if a.path = .own then .release else .hopCheck }
    (q.config.binding = .mgmt → q.entries.length < q.config.limit.toNat →
      let t := (s.setDeque intake { q with entries := q.entries ++ [a.frame] }).setRecord a.frame
        (.held { h with count := h.count + 1 })
      s.admitStep p = (if q.entries = [] then t.raise (.engineTake []) else t).setAdmission p unit) ∧
    (q.config.policy = .refuse → q.config.limit.toNat ≤ q.entries.length →
      s.admitStep p = (s.report
        { code := .intakeFull, port := some p, deque := some 28,
          summary := some h.header.summary }).setAdmission p unit)) ∧
  (∀ (s : State) (p : Port) (x : Reception) (f : ReceivingFrame) (h : Header),
    GoodFrame s p x f h → h.dest = s.station → h.kind = .order → (s.deque intake).config.limit = 4 →
    (s.deque intake).state = .active → x.record ∉ (s.deque intake).entries → (s.deque intake).entries.length < 4 →
    ∃ u, exec (.endOfFrame p []) s = .next u ∧
      let t := (u.admitStep p).admitStep p
      (t.deque intake).entries = (s.deque intake).entries ++ [x.record] ∧
      t.record x.record = .held ⟨f.cells, x.lineBytes - 4, .port p, h, f.stamp, 1⟩ ∧
      (∀ d, d ≠ intake → t.deque d = s.deque d) ∧ (∀ r, r ≠ x.record → t.record r = s.record r) ∧
      t.freeCells = s.freeCells ∧ t.freeRecords = s.freeRecords ∧ t.exc = s.exc ∧
      t.port p = { s.port p with link := .up 0, receiver := .idle, admission := .idle } ∧
      (∀ q, q ≠ p → t.port q = s.port q) ∧ SameElsewhere s t)

/-- The steps that end without a placement, each with its record: MISDIRECTED for an own frame that is no ORDER frame,
EXPIRED_HOP for a steered frame with hop budget 0, none under DISCARD, NO_ROUTE under DISCARD_REPORT; then the release.
A release lowers the count, and the last frees the frame: its cells join the tail of the free-cell queue in list order,
the record becomes FREE and joins the tail of the free-record queue. A frame misdirected or expired whose steps have
nothing between them is freed. -/
def Obligations.UnplacedFrameIsFreed : Prop :=
  (∀ (s : State) (p : Port) (a : Admitting) (h : HeldFrame), (s.port p).admission = .admitting a →
    s.record a.frame = .held h →
    let goesTo := fun (next : AdmitStep) (t : State) =>
      s.admitStep p = t.setAdmission p (.admitting { a with next := next })
    let reported := fun (code : ExcCode) (entry : Option EntryNo) =>
      s.report { code := code, port := some p, entry := entry, summary := some h.header.summary }
    (a.next = .misdirect → goesTo .release (reported .misdirected none)) ∧
    (a.next = .hopCheck → h.header.hop = 0 → goesTo .release (reported .expiredHop none)) ∧
    (a.next = .hopCheck → h.header.hop ≠ 0 → goesTo .lookup s) ∧
    (∀ x, a.next = .act → a.result = some x → x.disposition.action = .discard → goesTo .release s) ∧
    (∀ x, a.next = .act → a.result = some x → x.disposition.action = .discardReport →
      goesTo .release (reported .noRoute (match x.used with | .keyed i => some i | .default _ => none))) ∧
    (a.next = .release → s.admitStep p = (s.release a.frame).setAdmission p .idle)) ∧
  (∀ (s : State) (r : RecordNo) (h : HeldFrame), s.record r = .held h →
    (1 < h.count → s.release r = s.setRecord r (.held { h with count := h.count - 1 })) ∧
    (h.count ≤ 1 → s.release r = s.freeFrame r h.cells)) ∧
  (∀ (s : State) (r : RecordNo) (cells : List CellNo),
    s.freeFrame r cells = { s.setRecord r .free with
      freeCells := s.freeCells ++ cells, freeRecords := s.freeRecords ++ [r] } ∧
    (s.freeFrame r cells).record r = .free ∧ ∀ k, k ≠ r → (s.freeFrame r cells).record k = s.record k) ∧
  (∀ (s : State) (p : Port) (x : Reception) (f : ReceivingFrame) (h : Header) (code : ExcCode),
    GoodFrame s p x f h →
    ((h.dest = s.station ∧ h.kind ≠ .order ∧ code = .misdirected) ∨
      (h.dest ≠ s.station ∧ (h.dest = 4095 → h.kind ≠ .order) ∧ h.hop = 0 ∧ code = .expiredHop)) →
    ∃ u, exec (.endOfFrame p []) s = .next u ∧
      (u.admitStep p).admitStep p =
        ((s.setPort p { s.port p with link := .up 0, receiver := .idle, admission := .idle }).report
          { code := code, port := some p, summary := some h.summary }).freeFrame x.record f.cells)

/-- The steps of a frame that is steered: the lookup, whose copy the unit keeps; under FORWARD the hop rule, once; and
the targets in list order, each REFLECTED, refused with DEQUE_CLOSED or DEQUE_FULL, or accepted, before the next, with
the keyed index in each record. A frame that a default entry forwards to one deque with room, with nothing between its
steps, ends at the named end of that deque with its hop budget lowered once under DECREMENT. -/
def Obligations.SteeredFrameIsPlaced : Prop :=
  (∀ (s : State) (p : Port) (a : Admitting) (h : HeldFrame), (s.port p).admission = .admitting a →
    a.next = .lookup → s.record a.frame = .held h →
    let found := s.lookup h.header.dest h.header.cls p p (some h.header.summary)
    s.admitStep p = found.2.setAdmission p (.admitting { a with result := some found.1, next := .act })) ∧
  (∀ (s : State) (p : Port) (a : Admitting) (h : HeldFrame) (x : LookupResult) (ts : List GeneralNo),
    (s.port p).admission = .admitting a → a.next = .act → a.result = some x → x.disposition.action = .forward ts →
    s.record a.frame = .held h →
    s.admitStep p = (s.setRecord a.frame (.held { h with
      header := { h.header with
        hop := match x.disposition.hopRule with | .decrement => h.header.hop - 1 | .preserve => h.header.hop } })).setAdmission
      p (.admitting { a with nextTarget := some 1, next := .place })) ∧
  (∀ (s : State) (p : Port) (a : Admitting) (h : HeldFrame) (x : LookupResult) (ts : List GeneralNo) (k : Nat)
      (g : GeneralNo),
    (s.port p).admission = .admitting a → a.next = .place → a.result = some x → a.nextTarget = some k →
    s.record a.frame = .held h → x.disposition.action = .forward ts → ts.length ≤ 3 → 1 ≤ k → ts[k - 1]? = some g →
    let q := s.deque (general g)
    let onward := fun t : State => t.setAdmission p (.admitting
      (if k < ts.length then { a with nextTarget := some (k + 1), next := .place }
       else { a with nextTarget := none, next := .release }))
    let reported := fun code : ExcCode => s.report
      { code := code, port := some p, deque := some (general g), summary := some h.header.summary,
        entry := match x.used with | .keyed i => some i | .default _ => none }
    let arrival := s.arrive (general g) a.frame x.disposition.insertion
    (q.config.binding = .port p → s.admitStep p = onward (reported .reflected)) ∧
    (q.config.binding ≠ .port p → q.state ≠ .active → q.state ≠ .paused →
      s.admitStep p = onward (reported .dequeClosed)) ∧
    (q.config.binding ≠ .port p → (q.state = .active ∨ q.state = .paused) → a.frame ∉ q.entries →
      q.config.policy = .refuse → q.config.limit.toNat ≤ q.entries.length →
      s.admitStep p = onward (reported .dequeFull)) ∧
    (q.config.binding ≠ .port p → arrival.1 = .accepted → s.admitStep p = onward arrival.2)) ∧
  (∀ (s : State) (p : Port) (x : Reception) (f : ReceivingFrame) (h : Header) (g : GeneralNo) (e : Insertion)
      (rule : HopRule),
    GoodFrame s p x f h → h.dest ≠ s.station → (h.dest = 4095 → h.kind ≠ .order) → h.hop ≠ 0 →
    s.search h.dest h.cls p = none → (s.defaults.get p).disposition = ⟨.forward [g], e, rule⟩ →
    ((s.deque (general g)).state = .active ∨ (s.deque (general g)).state = .paused) →
    (s.deque (general g)).config.binding ≠ .port p → x.record ∉ (s.deque (general g)).entries →
    (s.deque (general g)).entries.length < (s.deque (general g)).config.limit.toNat →
    ∃ u, exec (.endOfFrame p []) s = .next u ∧
      let t := u.finishAdmission p 5
      (t.deque (general g)).entries =
        (match e with
          | .tail => (s.deque (general g)).entries ++ [x.record]
          | .head => x.record :: (s.deque (general g)).entries) ∧
      t.record x.record = .held ⟨f.cells, x.lineBytes - 4, .port p,
        { h with hop := match rule with | .decrement => h.hop - 1 | .preserve => h.hop }, f.stamp, 1⟩ ∧
      (∀ d, d ≠ general g → t.deque d = s.deque d) ∧ (∀ r, r ≠ x.record → t.record r = s.record r) ∧
      t.freeCells = s.freeCells ∧ t.freeRecords = s.freeRecords ∧ t.exc = s.exc ∧
      (t.port p).receiver = .idle ∧ (t.port p).admission = .idle ∧ (∀ q, q ≠ p → t.port q = s.port q) ∧
      SameElsewhere s t)

/-! ## Steering table -/

/-- A lookup: the one VALID match if its content is sound; the port's default entry if nothing matches; and if the match
fails its parity check, SUSPECT with version and content kept, the default entry, and a TP detection. A key matches a
triple when it has its destination, and its class and its port are members of the key's sets; a damaged key is compared
bit for bit. -/
def Obligations.LookupRule : Prop :=
  ∀ (s : State) (d : Address) (c : BitVec 3) (p q : Port) (m : Option Summary),
    (s.matching d c p = [] → s.lookup d c p q m = (⟨.default p, (s.defaults.get p).disposition⟩, s)) ∧
    (∀ (i : EntryNo) (x : Content), s.matching d c p = [i] → (s.entry i).body = .valid (.sound x) →
      s.lookup d c p q m = (⟨.keyed i, x.disposition⟩, s)) ∧
    (∀ (i : EntryNo) (b : Vector Byte 11), s.matching d c p = [i] → (s.entry i).body = .valid (.damaged b) →
      s.lookup d c p q m = (⟨.default p, (s.defaults.get p).disposition⟩,
        ((s.setEntry i ⟨(s.entry i).version, .suspect (.damaged b)⟩).detect (.tp i) q none m).2)) ∧
    (∀ (i : EntryNo), i ∈ s.matching d c p ↔ ∃ y, (s.entry i).body = .valid y ∧ y.matches d c p = true) ∧
    (let bit : Nat := match p with | .E => 0 | .W => 1 | .B => 2
     (∀ x : Content, (Stored.sound x).matches d c p = true ↔
        x.key.dest = d ∧ x.key.classes.getLsbD c.toNat = true ∧ x.key.ports.getLsbD bit = true) ∧
     (∀ b : Vector Byte 11, (Stored.damaged b).matches d c p = true ↔
        half b[0] b[1] = d.setWidth 16 ∧ b[2].getLsbD c.toNat = true ∧ b[3].getLsbD bit = true))

/-- The damage a command carries strikes the storage first, and the command then runs on what is stored (the model's
operand, entry 7): only contents of the table and cell codes can change by it. -/
def Obligations.UpsetsStrikeFirst : Prop :=
  (∀ (s : State) (us : List Upset),
    (∀ p, exec (.endOfFrame p us) s = exec (.endOfFrame p []) (s.strike us)) ∧
    exec (.engineTake us) s = exec (.engineTake []) (s.strike us) ∧
    (∀ ops, exec (.readEntry ops us) s = exec (.readEntry ops []) (s.strike us)) ∧
    (∀ ops, exec (.writeEntry ops us) s = exec (.writeEntry ops []) (s.strike us)) ∧
    (∀ ops, exec (.findEntry ops us) s = exec (.findEntry ops []) (s.strike us)) ∧
    s.strike us = { s with entries := (s.strike us).entries, ecc := (s.strike us).ecc }) ∧
  (∀ (s : State) (i : EntryNo) (x : Stored) (b : Vector Byte 11), (s.entry i).body = .valid x →
    s.strike [.entry i (.damaged b)] = s.setEntry i ⟨(s.entry i).version, .valid (.damaged b)⟩) ∧
  (∀ (s : State) (i : EntryNo) (y : Stored), (s.entry i).body = .free → s.strike [.entry i y] = s) ∧
  (∀ (s : State) (c : CellNo), s.strike [.cell c .uncorrected] = s.setEcc c .uncorrected)

/-! ## Egress -/

/-- Selection: the control deque over every general deque; else the highest level with a candidate, and in it the first
candidate of the circular search from one above the marker; nothing only when there is no candidate. -/
def Obligations.SelectionRule : Prop :=
  ∀ (s : State) (p : Port),
    (s.select p = some .control ↔ s.candidate p (controlDeque p) = true) ∧
    (∀ (v : Fin 8) (g : GeneralNo), s.select p = some (.atLevel v g) →
      s.candidate p (controlDeque p) = false ∧ s.candidate p (general g) = true ∧
      (s.deque (general g)).config.priority = some v.castSucc ∧
      (∀ (w : Fin 8) (g' : GeneralNo), v < w → s.candidate p (general g') = true →
        (s.deque (general g')).config.priority ≠ some w.castSucc) ∧
      (∀ g' : GeneralNo, s.candidate p (general g') = true →
        (s.deque (general g')).config.priority = some v.castSucc →
        searchDistance (s.marker p v) g ≤ searchDistance (s.marker p v) g')) ∧
    (s.select p = none → s.candidate p (controlDeque p) = false ∧
      ∀ (g : GeneralNo) (v : Fin 8), s.candidate p (general g) = true →
        (s.deque (general g)).config.priority ≠ some v.castSucc) ∧
    (∀ d : DequeNo, s.candidate p d = true ↔
      (s.deque d).config.binding = .port p ∧ (s.deque d).state = .active ∧ (s.deque d).entries ≠ [] ∧
        ((s.port p).held = true → d = controlDeque p))

/-- A take attempt: a frame that passes the dwell test is sent, all its cells unread, or none if it has no payload; one
that fails it is dropped with DWELL_EXPIRED and a new attempt is owed, and without IDLE transmitter, UP link or
candidate nothing happens. A take at a level, sent or dropped, sets that level's marker to the chosen deque and no other
marker; a take from the control deque moves none. -/
def Obligations.TakeAttempt : Prop :=
  (∀ (s : State) (p : Port) (c : Choice) (r : RecordNo) (rest : List RecordNo) (h : HeldFrame),
    (s.port p).transmitter = .idle → (s.port p).link.isUp = true →
    (s.settle (.takeAttempt p)).select p = some c → (s.deque (c.deque p)).entries = r :: rest →
    s.record r = .held h →
    ((s.deque (c.deque p)).config.dwell = 0 ∨
      (s.timebase - h.stamp).toNat ≤ (s.deque (c.deque p)).config.dwell.toNat * 100) →
    exec (.takeAttempt p) s = .next
      ((((s.settle (.takeAttempt p)).setDeque (c.deque p)
        { s.deque (c.deque p) with entries := rest }).moveMarker p c).setTransmitter p
          (.sending r (c.deque p) (if h.length ≤ 8 then [] else h.cells)))) ∧
  (∀ (s : State) (p : Port) (c : Choice) (r : RecordNo) (rest : List RecordNo) (h : HeldFrame),
    (s.port p).transmitter = .idle → (s.port p).link.isUp = true →
    (s.settle (.takeAttempt p)).select p = some c → (s.deque (c.deque p)).entries = r :: rest →
    s.record r = .held h → (s.deque (c.deque p)).config.dwell ≠ 0 →
    (s.deque (c.deque p)).config.dwell.toNat * 100 < (s.timebase - h.stamp).toNat →
    exec (.takeAttempt p) s = .next
      ((((((s.settle (.takeAttempt p)).setDeque (c.deque p)
        { s.deque (c.deque p) with entries := rest }).moveMarker p c).report
          { code := .dwellExpired, port := some p, deque := some (c.deque p),
            summary := some h.header.summary }).release r).raise (.takeAttempt p))) ∧
  (∀ (s : State) (p : Port), s.moveMarker p .control = s ∧ ∀ (v : Fin 8) (g : GeneralNo),
    s.moveMarker p (.atLevel v g) = s.setPort p { s.port p with markers := (s.port p).markers.set v.val g v.isLt }) ∧
  (∀ (s : State) (p : Port) (c : Choice) (r : RecordNo) (rest : List RecordNo) (h : HeldFrame),
    (s.port p).transmitter = .idle → (s.port p).link.isUp = true →
    (s.settle (.takeAttempt p)).select p = some c → (s.deque (c.deque p)).entries = r :: rest →
    s.record r = .held h →
    ∃ t, exec (.takeAttempt p) s = .next t ∧
      (∀ v g, c = .atLevel v g → t.marker p v = g ∧ ∀ w, w ≠ v → t.marker p w = s.marker p w) ∧
      (c = .control → ∀ w, t.marker p w = s.marker p w) ∧
      (∀ q w, q ≠ p → t.marker q w = s.marker q w)) ∧
  (∀ (s : State) (p : Port),
    ((∃ r d unread, (s.port p).transmitter = .sending r d unread) ∨ (s.port p).link.isUp = false ∨
      (s.settle (.takeAttempt p)).select p = none) →
    exec (.takeAttempt p) s = .next (s.settle (.takeAttempt p)))

/-- Completion. With the unread cells sound: header from the record, payload from the cells, CRC over both on the line
(entry 13); release, IDLE, and the port's take attempt, in the one event. With an error in a cell not yet read, that
read comes first: a corrected one is detected and the completion goes on, an uncorrected one is the poisoned end (entry
21). -/
def Obligations.TransmissionComplete : Prop :=
  ∀ (s : State) (p : Port) (r : RecordNo) (d : DequeNo) (unread : List CellNo) (h : HeldFrame),
    (s.port p).transmitter = .sending r d unread → s.record r = .held h →
    let bytes := h.header.encode (h.length - 8) ++ readStored h.cells s.mem 8 (h.length - 8)
    ((∀ c ∈ unread, s.eccOf c = .sound) →
      exec (.transmissionComplete p) s = .next
        ((((s.setLineOut p ⟨bytes ++ crcBytes (crc bytes), .complete⟩).release r).setTransmitter p .idle).takeAttempt
          p)) ∧
    (∀ before c after, unread = before ++ c :: after → (∀ k ∈ before, s.eccOf k = .sound) →
      (s.eccOf c = .uncorrected → exec (.transmissionComplete p) s = exec (.poisonedEnd p c) s) ∧
      (s.eccOf c = .corrected → ∃ t, exec (.cellReadCorrected p c) s = .next t ∧
        exec (.transmissionComplete p) s = exec (.transmissionComplete p) t))

/-- Cell reads of a transmitter, at the next cell with an error in list order: a corrected one is one CELL_CORRECTED
detection and the cells up to it are read; an uncorrected one ends the frame with the complement of the CRC over the
header and the payload before that cell, CELL_UNCORRECTED, a chained LOST_BY_CHECK, release, IDLE and a take attempt. A
cell that turned out uncorrected is so whichever read is commanded, and a cell already read is not read again. -/
def Obligations.CellReads : Prop :=
  (∀ (s : State) (p : Port) (c : CellNo) (r : RecordNo) (d : DequeNo) (before after : List CellNo) (h : HeldFrame),
    (s.port p).transmitter = .sending r d (before ++ c :: after) → s.record r = .held h →
    (∀ k ∈ before, s.eccOf k = .sound) → c ∉ before →
    let bytes := h.header.encode (h.length - 8) ++ readStored h.cells s.mem 8 (h.length - 8)
    (s.eccOf c ≠ .uncorrected →
      exec (.cellReadCorrected p c) s = .next
        (((s.setEcc c .corrected).detect (.ce c) p (some d) (some h.header.summary)).2.setTransmitter p
          (.sending r d after))) ∧
    (∀ front back, h.cells = front ++ c :: back → c ∉ front →
      let sent := bytes.take (max 8 (128 * front.length))
      let found := (s.setEcc c .uncorrected).detect (.ue c) p (some d) (some h.header.summary)
      exec (.poisonedEnd p c) s = .next
        (((((found.2.setLineOut p ⟨sent ++ crcBytes (~~~ crc sent), .poisoned⟩).report
          { code := .lostByCheck, port := some p, deque := some d, summary := some h.header.summary, cell := some c,
            chain := found.1 }).release r).setTransmitter p .idle).takeAttempt p)) ∧
    (s.eccOf c = .uncorrected → exec (.cellReadCorrected p c) s = exec (.poisonedEnd p c) s)) ∧
  (∀ (s : State) (p : Port) (c : CellNo),
    (∀ r d unread, (s.port p).transmitter = .sending r d unread → c ∉ unread) →
    exec (.cellReadCorrected p c) s = .next s ∧ exec (.poisonedEnd p c) s = .next s)

/-- An aborted transmission. Under retain the frame goes back to the head of its source deque, keeping stamp and count,
when the deque has room, or a full shedding deque sheds for it; a deque that holds the record already is unchanged and
the transmitter's reference goes. Without retain, or refused with DEQUE_CLOSED or DEQUE_FULL, it is released with
LINK_ABORT. LINK_DOWN is requested before. A frame that the port is receiving is TRUNCATED after the abort, and its
record and cells return to the pool; a receiver IDLE or DISCARDING requests nothing; that no group waits for the
receiver any more is the model's choice (R115, entry 25). The cause does not matter: loss of signal, loss of alignment
at the fourth invalid group, or RETRAIN-PORT. -/
def Obligations.AbortedTransmission : Prop :=
  ∀ (s : State) (p : Port) (r : RecordNo) (d : DequeNo) (unread : List CellNo) (h : HeldFrame) (cut : State → State),
    (s.port p).link.isUp = true → (s.port p).transmitter = .sending r d unread →
    s.record r = .held h → 1 ≤ h.count →
    (((∀ x, (s.port p).receiver ≠ .receiving x) ∧ cut = id) ∨
      ∃ x f, (s.port p).receiver = .receiving x ∧ s.record x.record = .receiving f ∧
        cut = fun u => (u.report { code := .truncated, port := some p }).freeFrame x.record f.cells) →
    let q := s.deque d
    let opened := q.state = .active ∨ q.state = .paused
    let full := q.config.limit.toNat ≤ q.entries.length
    let down := s.report { code := .linkDown, port := some p }
    let ends := fun (t : State) (signal : Bool) (quiet : Option Stamp) => (cut t).setPort p { t.port p with
      signal := signal, link := .down, quietUntil := quiet, receiver := .idle, lineWaits := [] }
    let aborts := fun after : State → Prop =>
      (∃ t, exec (.lossOfSignal p) s = .next (ends t false (s.port p).quietUntil) ∧ after t) ∧
      ((s.port p).link = .up 3 →
        ∃ t, exec (.lossOfAlignment p) s = .next (ends t (s.port p).signal (s.port p).quietUntil) ∧
          exec (.invalidCodeGroup p) s = .next (ends t (s.port p).signal (s.port p).quietUntil) ∧ after t) ∧
      (∀ j, OrderDue s j ⟨0x33, [p.code]⟩ 0 → FromHolder s j →
        ∃ t, exec (.retrainPort [p.code]) s =
          .next ((ends t (s.port p).signal (some (s.timebase + 2000))).conclude j 0x33 .ok []) ∧ after t)
    (q.config.retain = some true → opened → r ∉ q.entries → ¬ full →
      aborts (fun t => (t.deque d).entries = r :: q.entries ∧
        t.record r = .held h ∧ (t.port p).transmitter = .idle ∧ (∀ e, e ≠ d → t.deque e = s.deque e) ∧
        t.exc = down.exc ∧ t.freeCells = s.freeCells ∧ t.freeRecords = s.freeRecords)) ∧
    (∀ (v : RecordNo) (rest : List RecordNo) (g : HeldFrame), q.config.retain = some true → opened → r ∉ q.entries →
      full → s.record v = .held g →
      ((q.config.policy = .shedOldest ∧ q.entries = v :: rest) ∨
        (q.config.policy = .shedNewest ∧ q.entries = rest ++ [v])) →
      aborts (fun t => (t.deque d).entries = r :: rest ∧
        t.record r = .held h ∧ t.record v = (s.release v).record v ∧ (t.port p).transmitter = .idle ∧
        (∀ e, e ≠ d → t.deque e = s.deque e) ∧ t.freeCells = (s.release v).freeCells ∧
        t.freeRecords = (s.release v).freeRecords ∧
        t.exc = (down.report
          { code := .shed, port := q.config.binding.port?, deque := some d,
            summary := some g.header.summary }).exc)) ∧
    (q.config.retain = some true → opened → r ∈ q.entries →
      aborts (fun t => t.deques = s.deques ∧ t.records = (s.release r).records ∧
        t.freeCells = (s.release r).freeCells ∧ t.freeRecords = (s.release r).freeRecords ∧
        (t.port p).transmitter = .idle ∧ t.exc = down.exc)) ∧
    ((q.config.retain ≠ some true ∨ ¬ opened ∨ (r ∉ q.entries ∧ full ∧ q.config.policy = .refuse)) →
      aborts (fun t => t.deques = s.deques ∧ t.records = (s.release r).records ∧
        t.freeCells = (s.release r).freeCells ∧ t.freeRecords = (s.release r).freeRecords ∧
        (t.port p).transmitter = .idle ∧
        t.exc = (down.report
          { code := .linkAbort, port := some p, deque := some d, summary := some h.header.summary }).exc))

/-! ## Deques -/

/-- The outcome of an arrival, judged on state, entries and length; only an accepted arrival changes anything, and of
the deques only its own entries. An accepted one adds a reference, and offers new work to the consumer of an ACTIVE
deque that was empty; into a full deque it sheds an entry with TRAFFIC/SHED and its release. -/
def Obligations.ArrivalOutcomes : Prop :=
  ∀ (s : State) (d : DequeNo) (r : RecordNo) (e : Insertion),
    let q := s.deque d
    let opened := q.state = .active ∨ q.state = .paused
    let full := q.config.limit.toNat ≤ q.entries.length
    ((s.arrive d r e).1 = .dequeClosed ↔ ¬ opened) ∧
    ((s.arrive d r e).1 = .alreadyPresent ↔ opened ∧ r ∈ q.entries) ∧
    ((s.arrive d r e).1 = .dequeFull ↔
      opened ∧ r ∉ q.entries ∧ full ∧ (q.config.policy = .refuse ∨ q.entries = [])) ∧
    ((s.arrive d r e).1 ≠ .accepted → (s.arrive d r e).2 = s) ∧
    ((s.arrive d r e).1 = .accepted → ∀ f, f ≠ d → (s.arrive d r e).2.deque f = s.deque f) ∧
    ((s.arrive d r e).1 = .accepted → ¬ full →
      (s.arrive d r e).2.deque d = { q with entries := place e r q.entries }) ∧
    ((s.arrive d r e).1 = .accepted → full → q.config.policy = .shedOldest →
      (s.arrive d r e).2.deque d = { q with entries := place e r q.entries.tail }) ∧
    ((s.arrive d r e).1 = .accepted → full → q.config.policy = .shedNewest →
      (s.arrive d r e).2.deque d = { q with entries := place e r q.entries.dropLast }) ∧
    (∀ h, s.record r = .held h →
      ((s.arrive d r e).1 = .accepted → ¬ full →
        let t := (s.setDeque d { q with entries := place e r q.entries }).setRecord r
          (.held { h with count := h.count + 1 })
        (s.arrive d r e).2 =
          if q.entries = [] ∧ q.state = .active then
            match q.config.binding with
            | .port p => t.raise (.takeAttempt p)
            | .mgmt => t.raise (.engineTake [])
            | .unbound => t
          else t) ∧
      (∀ (v : RecordNo) (rest : List RecordNo) (g : HeldFrame), (s.arrive d r e).1 = .accepted → full →
        s.record v = .held g →
        ((q.config.policy = .shedOldest ∧ q.entries = v :: rest) ∨
          (q.config.policy = .shedNewest ∧ q.entries = rest ++ [v])) →
        (s.arrive d r e).2 =
          ((((s.report { code := .shed, port := match q.config.binding with | .port p => some p | _ => none,
                         deque := some d, summary := some g.header.summary }).setDeque d
            { q with entries := place e r rest }).release v).setRecord r (.held { h with count := h.count + 1 }))))

/-- A drain removal releases the head; the one that empties the deque gives it its target state, and the DRAIN-DEQUE
that waits gets OK with the count. -/
def Obligations.DrainRemoval : Prop :=
  (∀ (s : State) (d : DequeNo) (target : DrainTarget) (n : Nat) (r r' : RecordNo) (rest : List RecordNo),
    (s.deque d).state = .draining target n → (s.deque d).entries = r :: r' :: rest →
    exec (.drainRemoval d) s = .next
      ((((s.settle (.drainRemoval d)).setDeque d ⟨(s.deque d).config, .draining target (n + 1), r' :: rest⟩).release
        r).raise (.drainRemoval d))) ∧
  (∀ (s : State) (d : DequeNo) (target : DrainTarget) (n : Nat) (r : RecordNo) (j : Job) (o : Order),
    (s.deque d).state = .draining target n → (s.deque d).entries = [r] → s.engine = .drainWait j →
    j.current? = some o →
    exec (.drainRemoval d) s = .next
      (((((s.settle (.drainRemoval d)).setDeque d ⟨(s.deque d).config, target.state, []⟩).release r).offer d).conclude j
        o.code .ok [BitVec.ofNat 8 (n + 1)]))

/-! ## The engine -/

/-- The take of an order frame that is no retransmission. With sound cells a good list starts its first order and a
malformed one goes to REPLYING with ORDER_MALFORMED; either way the engine holds the frame and its copy. A corrected
cell is one CELL_CORRECTED detection and the list goes on; an uncorrected one is a CELL_UNCORRECTED detection and a
chained ORDER_ABANDONED, and no order is executed. -/
def Obligations.EngineTakeParses : Prop :=
  ∀ (s : State) (r : RecordNo) (rest : List RecordNo) (h : HeldFrame) (p : Port),
    s.engine = .idle → (s.deque intake).entries = r :: rest → s.record r = .held h → h.origin = .port p →
    (∀ k, s.claim = some k → h.header.dest = 4095 ∨ k.holder ≠ h.header.src ∨ k.lastSeq ≠ some h.header.seq) →
    let role := if h.header.dest = 4095 then Role.broadcast else .own
    let copy : FrameCopy := ⟨h.header.src, h.header.dest, h.header.cls, h.header.kind, h.header.seq, h.header.stop, p⟩
    let taken := (s.settle (.engineTake [])).setDeque intake { s.deque intake with entries := rest }
    let payload := readStored h.cells s.mem 8 (h.length - 8)
    let executes := fun (t : State) (o : Order) (os : List Order) => exec (.engineTake []) s = .next
      ({ t with engine := .executing ⟨some r, copy, role, o :: os, 1, [], 0, none⟩ }.raise (orderCommand o))
    let replies := fun (t : State) (status : FrameStatus) => exec (.engineTake []) s = .next
      ({ t with engine := .replying ⟨some r, copy, role, [], 0, [], 0, none⟩ status .build }.raise .replyBuild)
    ((∀ c ∈ h.cells, s.eccOf c = .sound) →
      (∀ (o : Order) (os : List Order), framePayload payload = .list (o :: os) → executes taken o os) ∧
      (∀ (w : ParseEnd) (m n : Nat), framePayload payload = .malformed w m n →
        replies (taken.report
          { code := .orderMalformed, port := some p, deque := some 28,
            summary := some h.header.summary }) .malformed)) ∧
    (∀ (before after : List CellNo) (c : CellNo) (o : Order) (os : List Order), h.cells = before ++ c :: after →
      h.cells.length = cellsFor h.length → framePayload payload = .list (o :: os) →
      (∀ k ∈ before, s.eccOf k = .sound) →
      (s.eccOf c = .corrected → (∀ k ∈ after, s.eccOf k = .sound) →
        executes (taken.detect (.ce c) p (some 28) (some h.header.summary)).2 o os) ∧
      (s.eccOf c = .uncorrected →
        let found := taken.detect (.ue c) p (some 28) (some h.header.summary)
        replies (found.2.report
          { code := .orderAbandoned, port := some p, deque := some 28,
            summary := some h.header.summary, cell := some c, chain := found.1 }) .abandoned))

/-- A retransmission by the holder executes nothing: the holder port moves, last sequence stays, the order frame is
released and the engine is IDLE. The stored reply is appended again to the control deque of the arrival port, or stays
once where it is, or meets a full deque and is REPLY_UNDELIVERED. With none stored a REPLAY_LOST reply is built and
appended, and not kept; a refused build is REPLY_UNDELIVERED. That the whole replay falls in the one ENGINE_TAKE, whose
end finds the engine IDLE, is the model's reading (entry 2). -/
def Obligations.RetransmissionIsReplayed : Prop :=
  ∀ (s : State) (r : RecordNo) (rest : List RecordNo) (h : HeldFrame) (p : Port) (k : Claim),
    s.engine = .idle → (s.deque intake).entries = r :: rest → s.record r = .held h → h.origin = .port p →
    h.header.dest ≠ 4095 → s.claim = some k → k.holder = h.header.src → k.lastSeq = some h.header.seq →
    let control := s.deque (controlDeque p)
    let room := control.entries.length < control.config.limit.toNat
    let undelivered := s.report
      { code := .replyUndelivered, port := some p, deque := some (controlDeque p),
        summary := some h.header.summary }
    control.state = .active →
    (∀ (kept : RecordNo) (g : HeldFrame), k.replyMemory = some kept → kept ≠ r → s.record kept = .held g →
      (room ∨ kept ∈ control.entries →
        ∃ t, exec (.engineTake []) s = .next t ∧ t.engine = .idle ∧ t.claim = some { k with port := p } ∧
          (t.deque intake).entries = rest ∧
          (t.deque (controlDeque p)).entries =
            (if kept ∈ control.entries then control.entries else control.entries ++ [kept]) ∧
          t.record kept = .held { g with count := if kept ∈ control.entries then g.count else g.count + 1 } ∧
          t.record r = (s.release r).record r ∧ t.exc = s.exc ∧ t.entries = s.entries ∧ t.defaults = s.defaults ∧
          t.mem = s.mem ∧ t.timebase = s.timebase ∧ t.station = s.station ∧ t.check = s.check ∧ t.ports = s.ports) ∧
      (¬ room → kept ∉ control.entries → control.config.policy = .refuse →
        ∃ t, exec (.engineTake []) s = .next t ∧ t.engine = .idle ∧ t.claim = some { k with port := p } ∧
          (t.deque intake).entries = rest ∧ t.deque (controlDeque p) = control ∧ t.record kept = .held g ∧
          t.record r = (s.release r).record r ∧ t.exc = undelivered.exc ∧ t.mem = s.mem ∧ t.ports = s.ports)) ∧
    (k.replyMemory = none →
      (∀ (n : RecordNo) (records : List RecordNo) (c : CellNo) (cells : List CellNo), s.freeRecords = n :: records →
        s.freeCells = c :: cells → n ≠ r → room → n ∉ control.entries →
        let payload := replyPayload .replayLost []
        let lost : Header := ⟨h.header.src, s.station, .reply, false, 7, 15, h.header.seq⟩
        ∃ t, exec (.engineTake []) s = .next t ∧ t.engine = .idle ∧ t.claim = some { k with port := p } ∧
          (t.deque intake).entries = rest ∧ (t.deque (controlDeque p)).entries = control.entries ++ [n] ∧
          t.record n = .held ⟨[c], 8 + payload.length, .internal, lost, s.timebase, 1⟩ ∧
          t.mem = writeStored [c] 0 (lost.encode payload.length ++ payload) s.mem ∧
          t.record r = (s.release r).record r ∧ t.exc = s.exc ∧ t.ports = s.ports) ∧
      (s.freeRecords = [] ∨ s.freeCells = [] →
        ∃ t, exec (.engineTake []) s = .next t ∧ t.engine = .idle ∧ t.claim = some { k with port := p } ∧
          (t.deque intake).entries = rest ∧ t.deque (controlDeque p) = control ∧
          t.record r = (s.release r).record r ∧ t.exc = undelivered.exc ∧ t.mem = s.mem ∧ t.ports = s.ports))

/-- The four events of R130 (entry 2), each for any job and status. Build: a record and cells in one request, count 1,
or REPLY_UNDELIVERED and on with no reply. Reply memory, for the holder's own frame: last sequence, holder port, the
release of the reply kept before, and a reference to the new one; for a broadcast frame or another source the claim
record stays. Placement at the tail of the control deque of the arrival port, or REPLY_UNDELIVERED. Release of the reply
and of the order frame, if the engine holds them; then IDLE, with a take owed when intake holds an entry. -/
def Obligations.ReplyBuild : Prop :=
  ∀ (s : State) (j : Job) (status : FrameStatus) (step : ReplyStep), s.engine = .replying j status step →
    let u := s.settle .replyBuild
    let goesTo := fun (next : ReplyStep) (t : State) =>
      exec .replyBuild s = .next ({ t with engine := .replying j status next }.raise .replyBuild)
    let undelivered : Request :=
      { code := .replyUndelivered, port := some j.copy.port,
        deque := some (controlDeque j.copy.port),
        summary := some ⟨j.copy.dest, j.copy.src, j.copy.cls, j.copy.kind⟩ }
    let payload := replyPayload status j.results
    let needed := cellsFor (8 + payload.length)
    let cells := s.freeCells.take needed
    let reply : Header := ⟨j.copy.src, s.station, .reply, false, 7, 15, j.copy.seq⟩
    (step = .build →
      (∀ r rest, s.freeRecords = r :: rest → needed ≤ s.freeCells.length →
        goesTo (.memory (some r)) { u.setRecord r
            (.held ⟨cells, 8 + payload.length, .internal, reply, s.timebase, 1⟩) with
          freeRecords := rest
          freeCells := s.freeCells.drop needed
          mem := writeStored cells 0 (reply.encode payload.length ++ payload) s.mem
          ecc := freshCodes cells s.ecc }) ∧
      ((s.freeRecords = [] ∨ s.freeCells.length < needed) → goesTo (.memory none) (u.report undelivered))) ∧
    (∀ new, step = .memory new →
      let next : ReplyStep := match new with | some r => .placement r | none => .release none
      (∀ k, j.role = .own → s.claim = some k → k.holder = j.copy.src →
        let released := match k.replyMemory with | some old => u.release old | none => u
        let kept := match new with | some r => released.addRef r | none => released
        goesTo next { kept with
          claim := some { k with lastSeq := some j.copy.seq, port := j.copy.port, replyMemory := new } }) ∧
      ((j.role = .broadcast ∨ s.holder? ≠ some j.copy.src) → goesTo next u)) ∧
    (∀ r, step = .placement r →
      let arrival := u.arrive (controlDeque j.copy.port) r .tail
      (arrival.1 = .accepted → goesTo (.release (some r)) arrival.2) ∧
      (arrival.1 = .dequeFull → goesTo (.release (some r)) (u.report undelivered))) ∧
    (∀ new, step = .release new →
      let first := match new with | some r => u.release r | none => u
      let second := match j.orderFrame with | some r => first.release r | none => first
      exec .replyBuild s = .next
        (if (s.deque intake).entries = [] then { second with engine := .idle }
         else { second with engine := .idle }.raise (.engineTake [])))

/-- Lease expiry at the expiry stamp: holder, stamp, port and last sequence go, reply memory releases its reply, the
retry timer stops, and CLAIM_EXPIRED is requested. The retry timer at its stamp sets a new one 100 ms ahead and owes an
attempt. That neither does anything at any other time or without a claim is the
model's reading (entry 5). -/
def Obligations.TimersExpire : Prop :=
  (∀ (s : State) (k : Claim), s.claim = some k → k.expiry = s.timebase →
    let released := match k.replyMemory with | some r => s.release r | none => s
    exec .leaseExpiry s = .next
      ({ released with claim := none, exc := { s.exc with retry := none } }.report
        { code := .claimExpired, port := some k.port })) ∧
  (∀ (s : State) (k : Claim), s.claim = some k → k.expiry ≠ s.timebase → exec .leaseExpiry s = .next s) ∧
  (∀ s : State, s.claim = none → exec .leaseExpiry s = .next s) ∧
  (∀ s : State,
      (s.exc.retry = some s.timebase →
        exec .retryTimerExpiry s = .next
          ({ s with exc := { s.exc with retry := some (s.timebase + 100000) } }.raise .noticeDeliveryAttempt)) ∧
      (s.exc.retry ≠ some s.timebase → exec .retryTimerExpiry s = .next s))

/-- What the end of an order does: its result joins the results, its data length the data used, and the next order
begins or the reply is due; nothing else changes. -/
def Obligations.ConcludeOrder : Prop :=
  ∀ (s : State) (j : Job) (code : Byte) (status : Status) (data : List Byte),
    let k : Job := { j with
      results := j.results ++ [⟨code, status, data⟩]
      dataUsed := j.dataUsed + data.length }
    (∀ o, j.orders[j.position]? = some o →
      s.conclude j code status data = { s with
        engine := .executing { k with position := j.position + 1 }
        follow := s.follow ++ [orderCommand o] }) ∧
    (j.orders[j.position]? = none →
      s.conclude j code status data = { s with
        engine := .replying k .executed .build
        follow := s.follow ++ [.replyBuild] })

/-- List end and room: under a list end every order is answered without being executed, NO_ROOM under NO_ROOM and
SKIPPED otherwise; and an order whose greatest result would not fit gets NO_ROOM and ends the list. -/
def Obligations.ListEndAndRoom : Prop :=
  ∀ (s : State) (j : Job) (o : Order), s.engine = .executing j → j.current? = some o →
    (j.listEnd = some .noRoom →
      exec (orderCommand o) s = .next ((s.settle (orderCommand o)).conclude j o.code .noRoom [])) ∧
    ((j.listEnd = some .stop ∨ j.listEnd = some .reset) →
      exec (orderCommand o) s = .next ((s.settle (orderCommand o)).conclude j o.code .skipped [])) ∧
    (j.listEnd = none → 1016 < j.dataUsed + greatestData o.code + (2 + 4 * j.orders.length) →
      exec (orderCommand o) s = .next
        ((s.settle (orderCommand o)).conclude { j with listEnd := some .noRoom } o.code .noRoom []))

/-- Checks 1 to 6 of every order: UNKNOWN_ORDER, BAD_LENGTH, NOT_PERMITTED in a broadcast frame, NOT_HOLDER, BAD_INDEX
for an operand that names no entry, deque or port, BAD_OPERAND for a value the order does not accept; each with no data
and no effect, and each ends the list when the stop flag is set. -/
def Obligations.OrderChecks : Prop :=
  ∀ (s : State) (j : Job) (o : Order), OrderDue s j o (greatestData o.code) →
    let refused := fun (status : Status) =>
      exec (orderCommand o) s = .next ((s.settle (orderCommand o)).conclude
        { j with listEnd := if j.copy.stop then some .stop else none } o.code status [])
    (orderRow o.code = none → refused .unknownOrder) ∧
    (∀ group len most, orderRow o.code = some (group, len, most) →
      (o.operands.length ≠ len → refused .badLength) ∧
      (o.operands.length = len → group ≠ .read → j.role = .broadcast → refused .notPermitted) ∧
      (o.operands.length = len → (group = .write ∨ o.code = 0x03 ∨ o.code = 0x04) → j.role = .own →
        s.holder? ≠ some j.copy.src → refused .notHolder) ∧
      (o.operands.length = len → (group = .read ∨ (o.code = 0x02 ∧ j.role = .own) ∨ FromHolder s j) →
        (NoSuchIndex o → refused .badIndex) ∧ (¬ NoSuchIndex o → WrongValue o → refused .badOperand)))

/-! ## Orders -/

/-- Read orders: OK with the data of their rules, in any frame and from any source, and no change of state; the seconds
left of a lease are rounded up, and that they are 0 at the expiry stamp itself, before the expiry event, is the model's
choice (entry 16); and the 20 bytes of an exception record. -/
def Obligations.ReadOrders : Prop :=
  ∀ (s : State) (j : Job),
    let answers := fun (o : Order) (data : List Byte) =>
      exec (orderCommand o) s = .next ((s.settle (orderCommand o)).conclude j o.code .ok data)
    (OrderDue s j ⟨0x01, []⟩ 12 → answers ⟨0x01, []⟩
      ([0x04, 0x28, 1] ++ addressBytes s.station ++
        (match s.claim with
          | some k => addressBytes k.holder ++
              [BitVec.ofNat 8 (((k.expiry - s.timebase).toNat + 999999) / 1000000)]
          | none => [0xFF, 0xFF, 0]) ++ be32 s.timebase)) ∧
    (∀ p : Port, OrderDue s j ⟨0x14, [p.code]⟩ 10 → answers ⟨0x14, [p.code]⟩
      (p.code :: (be16 (s.defaults.get p).version ++ (s.defaults.get p).disposition.bytes))) ∧
    (∀ d : DequeNo, OrderDue s j ⟨0x20, [BitVec.ofNat 8 d.val]⟩ 14 →
      let q := s.deque d
      let withAge := fun age : BitVec 32 => answers ⟨0x20, [BitVec.ofNat 8 d.val]⟩
        ([BitVec.ofNat 8 d.val,
          match q.config.binding with | .unbound => 0 | .port .E => 1 | .port .W => 2 | .port .B => 3 | .mgmt => 4,
          match q.config.priority with | some v => BitVec.ofNat 8 v.val | none => 0xFF,
          q.config.limit,
          match q.config.policy with | .refuse => 0 | .shedOldest => 1 | .shedNewest => 2] ++ be16 q.config.dwell ++
         [match q.config.retain with | some true => 1 | some false => 0 | none => 0xFF,
          match q.state with | .detached => 0 | .active => 1 | .paused => 2 | .draining _ _ => 3,
          BitVec.ofNat 8 q.entries.length] ++ be32 age)
      (q.entries = [] → withAge 0xFFFFFFFF) ∧
      (∀ r rest h, q.entries = r :: rest → s.record r = .held h → withAge (s.timebase - h.stamp))) ∧
    (∀ p : Port, OrderDue s j ⟨0x30, [p.code]⟩ 5 → answers ⟨0x30, [p.code]⟩
      [match p with | .E => 1 | .W => 2 | .B => 3,
        match (s.port p).link with | .down => 0 | .sync _ => 1 | .up _ => 2,
        if (s.port p).held then 1 else 0,
        match (s.port p).transmitter with | .idle => 0 | .sending _ _ _ => 1,
        match (s.port p).receiver with | .idle => 0 | .receiving _ => 1 | .discarding => 2]) ∧
    (OrderDue s j ⟨0x40, []⟩ 321 → answers ⟨0x40, []⟩
      (BitVec.ofNat 8 s.exc.records.length :: s.exc.records.flatMap ExceptionRecord.bytes)) ∧
    (∀ x : ExceptionRecord,
      let number : Nat × Nat := match x.code with
        | .runt => (1, 1) | .badCrc => (1, 2) | .badHeader => (1, 3) | .lengthMismatch => (1, 4)
        | .overlength => (1, 5) | .truncated => (1, 6) | .expiredHop => (2, 1) | .noRoute => (2, 2)
        | .misdirected => (2, 3) | .reflected => (2, 4) | .dequeFull => (2, 5) | .dequeClosed => (2, 6)
        | .shed => (2, 7) | .dwellExpired => (2, 8) | .linkAbort => (2, 9) | .lostByCheck => (2, 10)
        | .noRecord => (3, 1) | .noCell => (3, 2) | .noticeUndelivered => (3, 3) | .replyUndelivered => (3, 4)
        | .intakeFull => (4, 1) | .orderMalformed => (4, 2) | .orderAbandoned => (4, 3) | .claimTaken => (4, 4)
        | .claimExpired => (4, 5) | .linkUp => (5, 1) | .linkDown => (5, 2) | .cellCorrected => (6, 1)
        | .cellUncorrected => (6, 2) | .tableParity => (6, 3)
      x.bytes =
        [x.seq,
          BitVec.ofNat 8 (16 * number.1 + match x.mark with | .pending => 0 | .notified => 1),
          BitVec.ofNat 8 number.2,
          match x.port with | none => 0 | some .E => 1 | some .W => 2 | some .B => 3] ++ be32 x.stamp ++
        [match x.deque with | some d => BitVec.ofNat 8 d.val | none => 0xFF] ++
        be16 (match x.entry with | some i => BitVec.ofNat 16 i.val | none => 0xFFFF) ++
        (match x.summary with
          | some m => be16 (m.dest.setWidth 16) ++ be16 (m.src.setWidth 16) ++
              [BitVec.ofNat 8 (32 * m.cls.toNat +
                match m.kind with | .data => 0 | .order => 1 | .reply => 2 | .notice => 3)]
          | none => [0, 0, 0, 0, 0]) ++
        be16 (match x.cell with | some c => BitVec.ofNat 16 c.val | none => 0xFFFF) ++
        [match x.chain with | some n => n | none => 0,
          BitVec.ofNat 8 ((if x.summary.isSome then 1 else 0) + if x.chain.isSome then 2 else 0)]) ∧
    (OrderDue s j ⟨0x50, []⟩ 5 → answers ⟨0x50, []⟩ s.check.bytes) ∧
    (OrderDue s j ⟨0x60, []⟩ 6 → answers ⟨0x60, []⟩
      (be16 (BitVec.ofNat 16 s.freeCells.length) ++ be16 (BitVec.ofNat 16 s.freeRecords.length) ++ [16, 8]))

/-- CLAIM: granted when there is no holder, a renewal for the holder, CLAIMED_BY_OTHER otherwise, with the holder and
the seconds left, rounded up; that they are 0 at the expiry stamp itself, before the expiry event, is the model's choice
(entry 16); a lease of 0 is BAD_OPERAND. -/
def Obligations.ClaimOutcomes : Prop :=
  ∀ (s : State) (j : Job) (lease : Byte), OrderDue s j ⟨0x02, [lease]⟩ 3 → j.role = .own →
    let u := s.settle (.claim [lease])
    let ends := s.timebase + BitVec.ofNat 32 (lease.toNat * 1000000)
    (lease ≠ 0 → s.claim = none →
      exec (.claim [lease]) s = .next (((({ u with claim := some ⟨j.copy.src, ends, j.copy.port, none, none⟩ }.report
        { code := .claimTaken, port := some j.copy.port,
          summary := some ⟨j.copy.dest, j.copy.src, j.copy.cls, j.copy.kind⟩ }).syncTimer).raise
          .noticeDeliveryAttempt).conclude j 0x02 .ok (addressBytes j.copy.src ++ [lease]))) ∧
    (∀ k, lease ≠ 0 → s.claim = some k → k.holder = j.copy.src →
      exec (.claim [lease]) s = .next
        ({ u with claim := some { k with expiry := ends, port := j.copy.port } }.conclude j 0x02 .ok
          (addressBytes j.copy.src ++ [lease]))) ∧
    (∀ k, lease ≠ 0 → s.claim = some k → k.holder ≠ j.copy.src →
      exec (.claim [lease]) s = .next
        (u.conclude { j with listEnd := if j.copy.stop then some .stop else none } 0x02 .claimedByOther
          (addressBytes k.holder ++ [BitVec.ofNat 8 (((k.expiry - s.timebase).toNat + 999999) / 1000000)]))) ∧
    (lease = 0 →
      exec (.claim [lease]) s = .next
        (u.conclude { j with listEnd := if j.copy.stop then some .stop else none } 0x02 .badOperand []))

/-- RENEW (R134): NOT_HOLDER, BAD_OPERAND, or a new expiry stamp and holder port, with last sequence and reply memory
kept; the expiry event happens at the new stamp and not at the old. -/
def Obligations.RenewLease : Prop :=
  ∀ (s : State) (j : Job) (lease : Byte), OrderDue s j ⟨0x03, [lease]⟩ 1 → j.role = .own →
    let u := s.settle (.renew [lease])
    let failed := { j with listEnd := if j.copy.stop then some .stop else none }
    let ends := s.timebase + BitVec.ofNat 32 (lease.toNat * 1000000)
    (s.holder? ≠ some j.copy.src → exec (.renew [lease]) s = .next (u.conclude failed 0x03 .notHolder [])) ∧
    (s.holder? = some j.copy.src → lease = 0 →
      exec (.renew [lease]) s = .next (u.conclude failed 0x03 .badOperand [])) ∧
    (∀ k, s.claim = some k → k.holder = j.copy.src → lease ≠ 0 →
      ∃ t, exec (.renew [lease]) s = .next t ∧
        t = { u with claim := some { k with expiry := ends, port := j.copy.port } }.conclude j 0x03 .ok [lease] ∧
        (∀ now, now ≠ ends → exec .leaseExpiry { t with timebase := now } = .next { t with timebase := now }) ∧
        (∃ v, exec .leaseExpiry { t with timebase := ends } = .next v ∧ v.claim = none))

/-- RELEASE: NOT_HOLDER for another station; for the holder the claim record is cleared, reply memory lets go, the timer
stops, and no record is requested. -/
def Obligations.ReleaseClaim : Prop :=
  ∀ (s : State) (j : Job) (k : Claim), OrderDue s j ⟨0x04, []⟩ 0 → j.role = .own → s.claim = some k →
    let u := s.settle (.release [])
    (k.holder = j.copy.src →
      let released := match k.replyMemory with | some r => u.release r | none => u
      exec (.release []) s = .next
        ({ released with claim := none, exc := { s.exc with retry := none } }.conclude j 0x04 .ok [])) ∧
    (k.holder ≠ j.copy.src →
      exec (.release []) s = .next
        (u.conclude { j with listEnd := if j.copy.stop then some .stop else none } 0x04 .notHolder []))

/-- READ-ENTRY and FIND-ENTRY: 5 bytes for a FREE entry and 16 otherwise; a content that fails its check makes the entry
SUSPECT with version and content kept, and is a TP detection without a summary; the order is OK in every case. -/
def Obligations.TableReads : Prop :=
  (∀ (s : State) (j : Job) (hi lo : Byte) (i : EntryNo), OrderDue s j ⟨0x10, [hi, lo]⟩ 16 →
    (half hi lo).toNat = i.val →
    let u := s.settle (.readEntry [hi, lo] [])
    let name : List Byte := [hi, lo]
    let version := be16 (s.entry i).version
    ((s.entry i).body = .free →
      exec (.readEntry [hi, lo] []) s = .next (u.conclude j 0x10 .ok (name ++ [0] ++ version))) ∧
    (∀ x, (s.entry i).body = .valid (.sound x) →
      exec (.readEntry [hi, lo] []) s = .next
        (u.conclude j 0x10 .ok (name ++ [1] ++ version ++ (x.key.bytes ++ x.disposition.bytes)))) ∧
    (∀ x, (s.entry i).body = .suspect (.sound x) →
      exec (.readEntry [hi, lo] []) s = .next
        (u.conclude j 0x10 .ok (name ++ [2] ++ version ++ (x.key.bytes ++ x.disposition.bytes)))) ∧
    (∀ b, ((s.entry i).body = .valid (.damaged b) ∨ (s.entry i).body = .suspect (.damaged b)) →
      exec (.readEntry [hi, lo] []) s = .next
        ((((u.setEntry i ⟨(s.entry i).version, .suspect (.damaged b)⟩).detect (.tp i) j.copy.port none none).2).conclude
          j 0x10 .ok (name ++ [2] ++ version ++ b.toList)))) ∧
  (∀ (s : State) (j : Job) (hi lo cls : Byte) (p : Port) (d : Address) (c : BitVec 3),
    OrderDue s j ⟨0x13, [hi, lo, cls, p.code]⟩ 2 → half hi lo = d.setWidth 16 → cls = c.setWidth 8 →
    let u := s.settle (.findEntry [hi, lo, cls, p.code] [])
    (s.matching d c p = [] →
      exec (.findEntry [hi, lo, cls, p.code] []) s = .next (u.conclude j 0x13 .ok [0xFF, 0xFF])) ∧
    (∀ i x, s.matching d c p = [i] → (s.entry i).body = .valid (.sound x) →
      exec (.findEntry [hi, lo, cls, p.code] []) s = .next
        (u.conclude j 0x13 .ok (be16 (BitVec.ofNat 16 i.val)))) ∧
    (∀ i b, s.matching d c p = [i] → (s.entry i).body = .valid (.damaged b) →
      exec (.findEntry [hi, lo, cls, p.code] []) s = .next
        ((((u.setEntry i ⟨(s.entry i).version, .suspect (.damaged b)⟩).detect (.tp i) j.copy.port none none).2).conclude
          j 0x13 .ok [0xFF, 0xFF])))

/-- WRITE-ENTRY of a legal content by the holder: VERSION_MISMATCH with the current version, CONFLICT with the lowest
overlapping index of another VALID entry, or the whole content at one instant, VALID, version plus 1. Two keys overlap
when they have the same destination, a class in common and a port in common; a damaged key is compared bit for bit. -/
def Obligations.WriteEntryOutcomes : Prop :=
  (∀ (x : Content) (k : Key), (Stored.sound x).overlaps k = true ↔
    x.key.dest = k.dest ∧ (∃ n, x.key.classes.getLsbD n = true ∧ k.classes.getLsbD n = true) ∧
      (∃ n, x.key.ports.getLsbD n = true ∧ k.ports.getLsbD n = true)) ∧
  (∀ (b : Vector Byte 11) (k : Key), (Stored.damaged b).overlaps k = true ↔
    half b[0] b[1] = k.dest.setWidth 16 ∧ (∃ n, b[2].getLsbD n = true ∧ k.classes.getLsbD n = true) ∧
      (∃ n, b[3].getLsbD n = true ∧ k.ports.getLsbD n = true)) ∧
  ∀ (s : State) (j : Job) (i1 i0 v1 v0 : Byte) (i : EntryNo) (x : Content),
    let ops := [i1, i0, v1, v0] ++ (x.key.bytes ++ x.disposition.bytes)
    OrderDue s j ⟨0x11, ops⟩ 2 → FromHolder s j → (half i1 i0).toNat = i.val → x.legal = true →
    let u := s.settle (.writeEntry ops [])
    let failed := { j with listEnd := if j.copy.stop then some .stop else none }
    let v := (s.entry i).version
    let clash := fun n : EntryNo => n ≠ i ∧ ∃ y, (s.entry n).body = .valid y ∧ y.overlaps x.key = true
    (half v1 v0 ≠ v →
      exec (.writeEntry ops []) s = .next (u.conclude failed 0x11 .versionMismatch (be16 v))) ∧
    (∀ n, half v1 v0 = v → clash n → (∀ m, m < n → ¬ clash m) →
      exec (.writeEntry ops []) s = .next
        (u.conclude failed 0x11 .conflict (be16 (BitVec.ofNat 16 n.val)))) ∧
    (half v1 v0 = v → (∀ n, ¬ clash n) →
      exec (.writeEntry ops []) s = .next
        ((u.setEntry i ⟨v + 1, .valid (.sound x)⟩).conclude j 0x11 .ok (be16 (v + 1))))

/-- FREE-ENTRY and WRITE-DEFAULT by the holder: VERSION_MISMATCH with the current version, or the effect with the
version plus 1. -/
def Obligations.FreeEntryAndWriteDefault : Prop :=
  (∀ (s : State) (j : Job) (i1 i0 v1 v0 : Byte) (i : EntryNo),
    OrderDue s j ⟨0x12, [i1, i0, v1, v0]⟩ 2 → FromHolder s j → (half i1 i0).toNat = i.val →
    let u := s.settle (.freeEntry [i1, i0, v1, v0])
    let v := (s.entry i).version
    (half v1 v0 ≠ v →
      exec (.freeEntry [i1, i0, v1, v0]) s = .next
        (u.conclude { j with listEnd := if j.copy.stop then some .stop else none } 0x12 .versionMismatch (be16 v))) ∧
    (half v1 v0 = v →
      exec (.freeEntry [i1, i0, v1, v0]) s = .next
        ((u.setEntry i ⟨v + 1, .free⟩).conclude j 0x12 .ok (be16 (v + 1))))) ∧
  (∀ (s : State) (j : Job) (p : Port) (v1 v0 : Byte) (x : Disposition),
    let ops := [p.code, v1, v0] ++ x.bytes
    OrderDue s j ⟨0x15, ops⟩ 2 → FromHolder s j → x.action.legal = true →
    let u := s.settle (.writeDefault ops)
    let v := (s.defaults.get p).version
    (half v1 v0 ≠ v →
      exec (.writeDefault ops) s = .next
        (u.conclude { j with listEnd := if j.copy.stop then some .stop else none } 0x15 .versionMismatch (be16 v))) ∧
    (half v1 v0 = v →
      exec (.writeDefault ops) s = .next
        ({ u with defaults := s.defaults.set p ⟨v + 1, x⟩ }.conclude j 0x15 .ok (be16 (v + 1)))))

/-- SET-, OPEN-, PAUSE- and RESUME-DEQUE by the holder: FIXED_DEQUE for 28 to 31, WRONG_STATE when state or binding does
not allow the order, else the new configuration or state, with an offer of a deque that becomes ACTIVE. -/
def Obligations.DequeOrders : Prop :=
  ∀ (s : State) (j : Job) (d : DequeNo), FromHolder s j →
    let n : Byte := BitVec.ofNat 8 d.val
    let failed := { j with listEnd := if j.copy.stop then some .stop else none }
    let q := s.deque d
    (∀ (b : Binding) (v : Fin 8) (limit : Byte) (policy : Policy) (dwell1 dwell0 : Byte) (retain : Bool),
      let ops := [n, b.code, BitVec.ofNat 8 v.val, limit, policy.code, dwell1, dwell0, boolByte retain]
      OrderDue s j ⟨0x21, ops⟩ 0 → b ≠ .mgmt → limit ≠ 0 →
      let u := s.settle (.setDeque ops)
      (28 ≤ d.val → exec (.setDeque ops) s = .next (u.conclude failed 0x21 .fixedDeque [])) ∧
      (d.val < 28 → q.state ≠ .detached →
        exec (.setDeque ops) s = .next (u.conclude failed 0x21 .wrongState [])) ∧
      (d.val < 28 → q.state = .detached →
        exec (.setDeque ops) s = .next
          ((u.setDeque d { q with config := ⟨b, some v.castSucc, limit, policy, half dwell1 dwell0, some retain⟩ }).conclude
            j 0x21 .ok []))) ∧
    (OrderDue s j ⟨0x22, [n]⟩ 0 →
      let u := s.settle (.openDeque [n])
      (28 ≤ d.val → exec (.openDeque [n]) s = .next (u.conclude failed 0x22 .fixedDeque [])) ∧
      (d.val < 28 → (q.state ≠ .detached ∨ q.config.binding = .unbound) →
        exec (.openDeque [n]) s = .next (u.conclude failed 0x22 .wrongState [])) ∧
      (d.val < 28 → q.state = .detached → ∀ p, q.config.binding = .port p →
        exec (.openDeque [n]) s = .next
          (((u.setDeque d { q with state := .active }).raise (.takeAttempt p)).conclude j 0x22 .ok []))) ∧
    (OrderDue s j ⟨0x23, [n]⟩ 0 →
      let u := s.settle (.pauseDeque [n])
      (28 ≤ d.val → exec (.pauseDeque [n]) s = .next (u.conclude failed 0x23 .fixedDeque [])) ∧
      (d.val < 28 → q.state ≠ .active →
        exec (.pauseDeque [n]) s = .next (u.conclude failed 0x23 .wrongState [])) ∧
      (d.val < 28 → q.state = .active →
        exec (.pauseDeque [n]) s = .next ((u.setDeque d { q with state := .paused }).conclude j 0x23 .ok []))) ∧
    (OrderDue s j ⟨0x24, [n]⟩ 0 →
      let u := s.settle (.resumeDeque [n])
      (28 ≤ d.val → exec (.resumeDeque [n]) s = .next (u.conclude failed 0x24 .fixedDeque [])) ∧
      (d.val < 28 → q.state ≠ .paused →
        exec (.resumeDeque [n]) s = .next (u.conclude failed 0x24 .wrongState [])) ∧
      (d.val < 28 → q.state = .paused → ∀ p, q.config.binding = .port p →
        exec (.resumeDeque [n]) s = .next
          (((u.setDeque d { q with state := .active }).raise (.takeAttempt p)).conclude j 0x24 .ok [])))

/-- DRAIN-DEQUE by the holder: at once on an empty deque, with a removed count of 0 and the offer of a deque that
becomes ACTIVE; on a deque with entries DRAINING, the engine in DRAIN_WAIT and the first removal owed; ACTIVE refused
for a deque without a binding, 28 to 31 refused. An empty deque that was ACTIVE already makes no offer (the model's
choice, entry 24). -/
def Obligations.DrainOrder : Prop :=
  ∀ (s : State) (j : Job) (d : DequeNo) (target : DrainTarget),
    let ops : List Byte := [BitVec.ofNat 8 d.val, match target with | .detached => 0 | .active => 1]
    OrderDue s j ⟨0x25, ops⟩ 1 → FromHolder s j → (∀ t n, (s.deque d).state ≠ .draining t n) →
    let u := s.settle (.drainDeque ops)
    let failed := { j with listEnd := if j.copy.stop then some .stop else none }
    let q := s.deque d
    (28 ≤ d.val → exec (.drainDeque ops) s = .next (u.conclude failed 0x25 .fixedDeque [])) ∧
    (d.val < 28 → target = .active → q.config.binding = .unbound →
      exec (.drainDeque ops) s = .next (u.conclude failed 0x25 .wrongState [])) ∧
    (d.val < 28 → (target = .active → q.config.binding ≠ .unbound) → q.entries ≠ [] →
      exec (.drainDeque ops) s = .next
        { (u.setDeque d { q with state := .draining target 0 }).raise (.drainRemoval d) with engine := .drainWait j }) ∧
    (d.val < 28 → target = .detached → q.entries = [] →
      exec (.drainDeque ops) s = .next ((u.setDeque d { q with state := .detached }).conclude j 0x25 .ok [0])) ∧
    (d.val < 28 → target = .active → q.entries = [] → q.state ≠ .active → ∀ p, q.config.binding = .port p →
      exec (.drainDeque ops) s = .next
        (((u.setDeque d { q with state := .active }).raise (.takeAttempt p)).conclude j 0x25 .ok [0])) ∧
    (d.val < 28 → target = .active → q.entries = [] → q.state = .active → q.config.binding ≠ .unbound →
      exec (.drainDeque ops) s = .next (u.conclude j 0x25 .ok [0]))

/-- HOLD-, UNHOLD- and RETRAIN-PORT by the holder: the held flag, with a take attempt on UNHOLD; and detection begun
again, with a quiet period of 2000 microseconds. A RETRAIN-PORT of an UP link requests LINK_DOWN, and TRUNCATED when a
frame is being received, whose record and cells return; that no group waits for the receiver after it is the model's
choice (R115, entry 25). (A frame being sent: AbortedTransmission.) -/
def Obligations.PortOrders : Prop :=
  ∀ (s : State) (j : Job) (p : Port), FromHolder s j →
    (OrderDue s j ⟨0x31, [p.code]⟩ 0 →
      exec (.holdPort [p.code]) s = .next
        (((s.settle (.holdPort [p.code])).setPort p { s.port p with held := true }).conclude j 0x31 .ok [])) ∧
    (OrderDue s j ⟨0x32, [p.code]⟩ 0 →
      exec (.unholdPort [p.code]) s = .next
        ((((s.settle (.unholdPort [p.code])).setPort p { s.port p with held := false }).takeAttempt p).conclude
          j 0x32 .ok [])) ∧
    (OrderDue s j ⟨0x33, [p.code]⟩ 0 → (s.port p).link.isUp = false →
      exec (.retrainPort [p.code]) s = .next
        (((s.settle (.retrainPort [p.code])).setPort p
          { s.port p with link := .down, quietUntil := some (s.timebase + 2000) }).conclude j 0x33 .ok [])) ∧
    (OrderDue s j ⟨0x33, [p.code]⟩ 0 → (s.port p).link.isUp = true →
      ∃ u t : State, exec (.retrainPort [p.code]) s = .next t ∧ t = u.conclude j 0x33 .ok [] ∧ (u.port p).link = .down ∧
        (u.port p).quietUntil = some (s.timebase + 2000) ∧ (u.port p).transmitter = .idle ∧
        (u.port p).receiver = .idle ∧ (u.port p).lineWaits = [] ∧ (u.port p).held = (s.port p).held ∧
        (u.port p).signal = (s.port p).signal ∧
        (∀ q, q ≠ p → u.port q = s.port q) ∧ SameElsewhere s u) ∧
    (OrderDue s j ⟨0x33, [p.code]⟩ 0 → (s.port p).link.isUp = true → (s.port p).transmitter = .idle →
      let left := ((s.settle (.retrainPort [p.code])).setPort p { s.port p with
        link := .down, receiver := .idle, lineWaits := [], quietUntil := some (s.timebase + 2000) }).report
          { code := .linkDown, port := some p }
      ((∀ x, (s.port p).receiver ≠ .receiving x) →
        exec (.retrainPort [p.code]) s = .next (left.conclude j 0x33 .ok [])) ∧
      (∀ x f, (s.port p).receiver = .receiving x → s.record x.record = .receiving f →
        exec (.retrainPort [p.code]) s = .next
          (((left.report { code := .truncated, port := some p }).freeFrame x.record f.cells).conclude j 0x33 .ok [])))

/-- ACK-EXCEPTIONS, SET-REPORTING and CLEAR-CHECKS by the holder. -/
def Obligations.ReportingOrders : Prop :=
  ∀ (s : State) (j : Job), FromHolder s j →
    (∀ a : Byte, OrderDue s j ⟨0x41, [a]⟩ 1 →
      ∃ u : State, exec (.ackExceptions [a]) s = .next (u.conclude j 0x41 .ok
          [BitVec.ofNat 8 (s.exc.records.countP (fun r => decide ((a - r.seq).toNat < 128)))]) ∧
        u = { s.settle (.ackExceptions [a]) with exc := u.exc } ∧
        u.exc.creation = s.exc.creation.filter (fun i => (s.exc.slot i).any (fun r => decide (128 ≤ (a - r.seq).toNat))) ∧
        (∀ i, u.exc.slot i = (s.exc.slot i).filter (fun r => decide (128 ≤ (a - r.seq).toNat))) ∧
        u.exc.counter = s.exc.counter ∧ u.exc.mask = s.exc.mask ∧ u.exc.notices = s.exc.notices ∧
        u.exc.building = s.exc.building) ∧
    (∀ (mask level : Byte) (notices : Bool) (l : Fin 4), OrderDue s j ⟨0x42, [mask, level, boolByte notices]⟩ 0 →
      level.toNat = l.val → mask.getLsbD 0 = false → mask.getLsbD 6 = false → mask.getLsbD 7 = false →
      exec (.setReporting [mask, level, boolByte notices]) s = .next
        ({ s.settle (.setReporting [mask, level, boolByte notices]) with
            exc := { s.exc with
              mask := ⟨mask.getLsbD 1, mask.getLsbD 2, mask.getLsbD 3, mask.getLsbD 4, mask.getLsbD 5⟩
              notices := notices }
            check := { s.check with level := l } }.conclude j 0x42 .ok [])) ∧
    (OrderDue s j ⟨0x51, []⟩ 0 →
      exec (.clearChecks []) s = .next
        ({ s.settle (.clearChecks []) with check := ⟨false, false, false, none, s.check.level⟩ }.conclude j 0x51 .ok []))

/-- RESET-TRAFFIC by the holder: pool rebuilt, deques emptied, ports ended, reply memory empty, NOTIFIED records PENDING
and no delivery attempt or placement owed (entry 15); with a holder and a record the retry timer runs, at the stamp it
has or else 100 ms ahead, and otherwise it is STOPPED; a frame cut short ends with the complement of the CRC over at
least its header (entry 10); a group that waits for a receiver waits on (entry 25); station, timebase, table,
configurations, markers, held flags, links, claim, mask and check record kept; the order's result is OK and the list
ends. -/
def Obligations.ResetTraffic : Prop :=
  ∀ (s : State) (j : Job), OrderDue s j ⟨0x70, []⟩ 0 → FromHolder s j →
    ∃ u : State, exec (.resetTraffic []) s = .next
        (u.conclude { j with listEnd := some .reset, orderFrame := none } 0x70 .ok []) ∧
      u.freeCells = List.finRange 2048 ∧ u.freeRecords = List.finRange 1024 ∧ (∀ r, u.record r = .free) ∧
      (∀ d, u.deque d = { s.deque d with entries := [] }) ∧
      (∀ p, (u.port p).transmitter = .idle ∧ (u.port p).admission = .idle ∧
        (u.port p).receiver = (match (s.port p).receiver with | .receiving _ => .discarding | x => x) ∧
        (u.port p).link = (s.port p).link ∧ (u.port p).quietUntil = (s.port p).quietUntil ∧
        (u.port p).signal = (s.port p).signal ∧ (u.port p).held = (s.port p).held ∧
        (u.port p).lineWaits = (s.port p).lineWaits ∧ (u.port p).markers = (s.port p).markers) ∧
      u.claim = s.claim.map (fun k => { k with replyMemory := none }) ∧
      (∀ i, u.exc.slot i = (s.exc.slot i).map (fun r => { r with mark := .pending })) ∧
      u.exc.creation = s.exc.creation ∧ u.exc.counter = s.exc.counter ∧ u.exc.mask = s.exc.mask ∧
      u.exc.notices = s.exc.notices ∧ u.exc.building = none ∧
      (s.claim.isSome = true → u.exc.pendingRecords ≠ [] → u.exc.retry =
        some (match s.exc.retry with | some stamp => stamp | none => s.timebase + 100000)) ∧
      ((s.claim = none ∨ u.exc.pendingRecords = []) → u.exc.retry = none) ∧
      .noticeDeliveryAttempt ∉ u.follow ∧ .noticePlacement ∉ u.follow ∧
      (∀ p r d unread h, (s.port p).transmitter = .sending r d unread → s.record r = .held h →
        ∃ n, 8 ≤ n ∧
          let sent := (h.header.encode (h.length - 8) ++ readStored h.cells s.mem 8 (h.length - 8)).take n
          (u.port p).lineOut = some ⟨sent ++ crcBytes (~~~ crc sent), .poisoned⟩) ∧
      u.timebase = s.timebase ∧ u.straps = s.straps ∧ u.station = s.station ∧ u.entries = s.entries ∧
      u.defaults = s.defaults ∧ u.check = s.check ∧ u.mem = s.mem

/-- RESET-FULL by the holder: every block at its hard-reset values, but station, timebase, links and quiet periods kept,
a RECEIVING receiver DISCARDING, a frame cut short ended with the complement of the CRC over at least its header (the
model's choice, entry 10), and a group that waits for a receiver left waiting (entry 25); the order's result is OK and
the list ends. -/
def Obligations.ResetFull : Prop :=
  ∀ (s : State) (j : Job), OrderDue s j ⟨0x71, []⟩ 0 → FromHolder s j →
    ∃ u : State, exec (.resetFull []) s = .next
        (u.conclude { j with listEnd := some .reset, orderFrame := none } 0x71 .ok []) ∧
      u.entries = State.reset.entries ∧ u.defaults = State.reset.defaults ∧ u.deques = State.reset.deques ∧
      u.freeCells = State.reset.freeCells ∧ u.freeRecords = State.reset.freeRecords ∧
      u.records = State.reset.records ∧ u.claim = none ∧ u.exc = State.reset.exc ∧ u.check = State.reset.check ∧
      (∀ p, (u.port p).transmitter = .idle ∧ (u.port p).admission = .idle ∧
        (u.port p).receiver = (match (s.port p).receiver with | .receiving _ => .discarding | x => x) ∧
        (u.port p).link = (s.port p).link ∧ (u.port p).quietUntil = (s.port p).quietUntil ∧
        (u.port p).signal = (s.port p).signal ∧ (u.port p).held = false ∧
        (u.port p).lineWaits = (s.port p).lineWaits ∧ (∀ v, u.marker p v = 27)) ∧
      (∀ p r d unread h, (s.port p).transmitter = .sending r d unread → s.record r = .held h →
        ∃ n, 8 ≤ n ∧
          let sent := (h.header.encode (h.length - 8) ++ readStored h.cells s.mem 8 (h.length - 8)).take n
          (u.port p).lineOut = some ⟨sent ++ crcBytes (~~~ crc sent), .poisoned⟩) ∧
      u.timebase = s.timebase ∧ u.station = s.station

/-! ## Exception records and notices -/

/-- A created record takes the counter's value as its sequence, joins the end of the creation list, and the counter
advances by 1; it owes a delivery attempt unless it is NOTICE_UNDELIVERED; with a holder the retry timer then runs, with
the stamp it had or, if it was stopped, with one of now plus 100 000. A dropped request changes nothing; an
acknowledgement and a read do not move the counter (a hard reset and a RESET-FULL set it to 0: HardReset, ResetFull). -/
def Obligations.RecordSequence : Prop :=
  (∀ (s : State) (q : Request), s.exc.mask.allows q.code.cls = true →
    (s.request q).1 = some s.exc.counter ∧ (s.request q).2.exc.counter = s.exc.counter + 1 ∧
      ∃ i, (s.request q).2.exc.slot i = some (q.toRecord s.exc.counter s.timebase) ∧
        (s.request q).2.exc.creation.getLast? = some i) ∧
  (∀ (s : State) (q : Request), s.exc.mask.allows q.code.cls = true →
    (s.request q).2.follow =
      (if q.code = .noticeUndelivered then s.follow else s.follow ++ [.noticeDeliveryAttempt]) ∧
    (s.request q).2.exc.retry =
      (match s.claim, s.exc.retry with
        | none, _ => none
        | some _, some stamp => some stamp
        | some _, none => some (s.timebase + 100000))) ∧
  (∀ (s : State) (q : Request), s.exc.mask.allows q.code.cls = false → s.request q = (none, s)) ∧
  (∀ (s t : State) (ops : List Byte), exec (.ackExceptions ops) s = .next t → t.exc.counter = s.exc.counter) ∧
  (∀ (s t : State) (ops : List Byte), exec (.readExceptions ops) s = .next t → t.exc.counter = s.exc.counter)

/-- The slot of a new record. When no record holds its sequence: the lowest FREE one; else the one of the oldest
NOTIFIED record; else the one of the oldest record. A record that holds it is freed first and leaves the creation list,
and the lowest of its slot and the FREE ones is taken. -/
def Obligations.SlotChoice : Prop :=
  ∀ (u : ExcUnit) (q : Request) (now : Stamp), (∀ i ∈ u.creation, (u.slot i).isSome = true) →
    let written := fun i : SlotNo =>
      (u.create q now).slot i = some (q.toRecord u.counter now) ∧
        (∀ k, k ≠ i → (u.create q now).slot k = u.slot k) ∧
        (u.create q now).creation = u.creation.erase i ++ [i]
    ((∀ i r, u.slot i = some r → r.seq ≠ u.counter) →
      (∀ i, u.slot i = none → (∀ k, k < i → u.slot k ≠ none) → written i) ∧
      ((∀ i, u.slot i ≠ none) → ∀ older i newer r, u.creation = older ++ i :: newer → u.slot i = some r →
        r.mark = .notified → (∀ k ∈ older, ∀ x, u.slot k = some x → x.mark = .pending) → written i) ∧
      ((∀ i r, u.slot i = some r → r.mark = .pending) → (∀ i, u.slot i ≠ none) →
        ∀ i newer, u.creation = i :: newer → written i)) ∧
    (∀ (j : SlotNo) (old : ExceptionRecord), u.slot j = some old → old.seq = u.counter →
      (∀ i r, i ≠ j → u.slot i = some r → r.seq ≠ u.counter) →
      ∀ i, (i = j ∨ u.slot i = none) → (∀ k, k < i → k ≠ j ∧ u.slot k ≠ none) →
        (u.create q now).slot i = some (q.toRecord u.counter now) ∧
        (∀ k, k ≠ i → (u.create q now).slot k = if k = j then none else u.slot k) ∧
        (u.create q now).creation = u.creation.filter (fun k => decide (k ≠ j)) ++ [i])

/-- A delivery attempt that a trigger has made due: with notices on, a holder, a PENDING record and no notice in
building, a NOTICE with the oldest four is built at one record and one cell; when any of these fails, nothing happens
but the debt; without a trigger, nothing at all (R183; entry 5). -/
def Obligations.NoticeDelivery : Prop :=
  (∀ (s : State) (k : Claim) (r : RecordNo) (records : List RecordNo) (c : CellNo) (cells : List CellNo),
    .noticeDeliveryAttempt ∈ s.follow →
    s.exc.notices = true → s.claim = some k → s.exc.pendingRecords ≠ [] → s.exc.building = none →
    s.freeRecords = r :: records → s.freeCells = c :: cells →
    let carried := s.exc.pendingRecords.take 4
    let payload := noticePayload carried
    let h : Header := ⟨k.holder, s.station, .notice, false, 7, 15, (carried.map ExceptionRecord.seq).headD 0⟩
    exec .noticeDeliveryAttempt s = .next
      ({ (s.settle .noticeDeliveryAttempt).setRecord r
            (.held ⟨[c], 8 + payload.length, .internal, h, s.timebase, 1⟩) with
          freeRecords := records
          freeCells := cells
          mem := writeStored [c] 0 (h.encode payload.length ++ payload) s.mem
          ecc := s.ecc.set c.val .sound c.isLt
          exc := { s.exc with building := some ⟨r, k.holder, carried.map ExceptionRecord.seq⟩ } }.raise .noticePlacement)) ∧
  (∀ s : State,
    (s.exc.notices = false ∨ s.claim = none ∨ s.exc.pendingRecords = [] ∨ s.exc.building ≠ none) →
    exec .noticeDeliveryAttempt s = .next (s.settle .noticeDeliveryAttempt)) ∧
  (∀ s : State, .noticeDeliveryAttempt ∉ s.follow → exec .noticeDeliveryAttempt s = .next s) ∧
  (∀ (s : State) (k : Claim), .noticeDeliveryAttempt ∈ s.follow →
    s.exc.notices = true → s.claim = some k → s.exc.pendingRecords ≠ [] → s.exc.building = none →
    (s.freeRecords = [] ∨ s.freeCells = []) →
    exec .noticeDeliveryAttempt s = .next
      (if s.exc.pendingRecords.any (fun r => decide (r.code = .noticeUndelivered)) then
          s.settle .noticeDeliveryAttempt
        else (s.settle .noticeDeliveryAttempt).report
          { code := .noticeUndelivered, port := some k.port, deque := some (controlDeque k.port),
            chain := s.exc.pendingRecords.head?.map ExceptionRecord.seq }))

/-- The placement of a notice: ACCEPTED marks its records NOTIFIED and owes a further attempt while PENDING records
remain, DEQUE_FULL leaves them PENDING with at most one NOTICE_UNDELIVERED, and a notice whose destination is not the
holder is set aside and freed; the unit lets go of it in each case. -/
def Obligations.NoticePlacement : Prop :=
  (∀ (s : State) (n : Building) (k : Claim) (h : HeldFrame),
    s.exc.building = some n → s.claim = some k → k.holder = n.dest → s.record n.record = .held h → h.count = 1 →
    (s.deque (controlDeque k.port)).state = .active → n.record ∉ (s.deque (controlDeque k.port)).entries →
    (s.deque (controlDeque k.port)).entries.length < (s.deque (controlDeque k.port)).config.limit.toNat →
    ∃ t, exec .noticePlacement s = .next t ∧
      (t.deque (controlDeque k.port)).entries = (s.deque (controlDeque k.port)).entries ++ [n.record] ∧
      (∀ d, d ≠ controlDeque k.port → t.deque d = s.deque d) ∧ t.record n.record = .held h ∧
      t.exc.building = none ∧ t.exc.creation = s.exc.creation ∧ t.exc.counter = s.exc.counter ∧
      (∀ i, t.exc.slot i =
        (s.exc.slot i).map (fun r => if r.seq ∈ n.seqs then { r with mark := .notified } else r)) ∧
      (t.exc.pendingRecords = [] → t.exc.retry = none) ∧
      ((s.deque (controlDeque k.port)).config.binding = .port k.port →
        t.follow = (s.settle .noticePlacement).follow ++
          (if (s.deque (controlDeque k.port)).entries = [] then [.takeAttempt k.port] else []) ++
          (if t.exc.pendingRecords = [] then [] else [.noticeDeliveryAttempt])) ∧
      t.ports = s.ports ∧ SameElsewhere s t) ∧
  (∀ (s : State) (n : Building) (k : Claim) (h : HeldFrame),
    s.exc.building = some n → s.claim = some k → k.holder = n.dest → s.record n.record = .held h → h.count = 1 →
    (s.deque (controlDeque k.port)).state = .active → n.record ∉ (s.deque (controlDeque k.port)).entries →
    (s.deque (controlDeque k.port)).config.policy = .refuse →
    (s.deque (controlDeque k.port)).config.limit.toNat ≤ (s.deque (controlDeque k.port)).entries.length →
    let gone := { s.settle .noticePlacement with exc := { s.exc with building := none } }.freeFrame n.record h.cells
    exec .noticePlacement s = .next
      (if s.exc.pendingRecords.any (fun r => decide (r.code = .noticeUndelivered)) then gone
        else gone.report
          { code := .noticeUndelivered, port := some k.port, deque := some (controlDeque k.port),
            chain := n.seqs.head? })) ∧
  (∀ (s : State) (n : Building) (h : HeldFrame),
    s.exc.building = some n → (∀ k, s.claim = some k → k.holder ≠ n.dest) → s.record n.record = .held h →
    h.count = 1 →
    let gone := { s.settle .noticePlacement with exc := { s.exc with building := none } }.freeFrame n.record h.cells
    exec .noticePlacement s = .next
      (if s.exc.pendingRecords = [] then gone else gone.raise .noticeDeliveryAttempt))

/-- A detection sets the flag of its kind and decides the location by severity, at every check level; the law of R187
survives it. Then, in the same event, a record is requested where the level admits the kind, UE from level 1, TP from
level 2, CE from level 3, with the fields of its kind, and the sequence given is the answer; else nothing more changes
and the answer is none. -/
def Obligations.DetectionTaken : Prop :=
  (∀ (s : State) (x : Location) (p : Port) (d : Option DequeNo) (m : Option Summary),
    (s.detect x p d m).2.check =
      { s.check with
        ce := s.check.ce || (match x with | .ce _ => true | _ => false)
        ue := s.check.ue || (match x with | .ue _ => true | _ => false)
        tp := s.check.tp || (match x with | .tp _ => true | _ => false)
        location := match s.check.location, x with
          | none, x => some x
          | some (.ce c), .ce _ => some (.ce c)
          | some (.ce _), x => some x
          | some (.tp _), .ue c => some (.ue c)
          | some l, _ => some l }) ∧
  (∀ (s : State) (x : Location) (p : Port) (d : Option DequeNo) (m : Option Summary),
    CheckLaw s → CheckLaw (s.detect x p d m).2) ∧
  (∀ (s : State) (x : Location) (p : Port) (d : Option DequeNo) (m : Option Summary),
    let noted := { s with check := (s.detect x p d m).2.check }
    let least : Nat := match x with | .ue _ => 1 | .tp _ => 2 | .ce _ => 3
    let wanted : Request := match x with
      | .ce c => { code := .cellCorrected, port := some p, deque := d, summary := m, cell := some c }
      | .ue c => { code := .cellUncorrected, port := some p, deque := d, summary := m, cell := some c }
      | .tp i => { code := .tableParity, port := some p, entry := some i, summary := m }
    (least ≤ s.check.level.val → s.detect x p d m = noted.request wanted) ∧
    (s.check.level.val < least → s.detect x p d m = (none, noted)) ∧
    ((noted.request wanted).1 = some s.exc.counter)) ∧
  (∀ (s : State) (j : Job), OrderDue s j ⟨0x50, []⟩ 5 →
    exec (.readChecks []) s = .next ((s.settle (.readChecks [])).conclude j 0x50 .ok
      ((0#5 ++ (BitVec.ofBool s.check.tp ++ (BitVec.ofBool s.check.ue ++ BitVec.ofBool s.check.ce))) ::
        (match s.check.location with
          | none => [0, 0xFF, 0xFF]
          | some (.ce c) => 1 :: be16 (BitVec.ofNat 16 c.val)
          | some (.ue c) => 1 :: be16 (BitVec.ofNat 16 c.val)
          | some (.tp i) => 2 :: be16 (BitVec.ofNat 16 i.val)) ++ [BitVec.ofNat 8 s.check.level.val])))

/-! ## Encodings -/

/-- The parse of what a list of 1 to 16 orders is written as gives the list back. -/
def Obligations.OrderListRoundTrip : Prop :=
  ∀ os : List Order, os ≠ [] → os.length ≤ 16 → (∀ o ∈ os, o.operands.length ≤ 255) →
    framePayload (os.flatMap Order.bytes) = .list os

/-- A header as it is sent passes the header-form check and reads back as it was, with its payload length; and a legal
content as a read returns it is decoded to the same content. -/
def Obligations.FormatsRoundTrip : Prop :=
  (∀ (h : Header) (n : Nat) (payload : List Byte), n ≤ 1016 →
      headerFormGood (h.encode n ++ payload) = true ∧ Header.decode (h.encode n ++ payload) = some h ∧
        payloadLengthField (h.encode n ++ payload) = n) ∧
  (∀ x : Content, x.legal = true →
      match x.key.bytes, x.disposition.bytes with
      | [d1, d0, classes, ports], [action, count, t0, t1, t2, insertion, hop] =>
        keyOperand d1 d0 classes ports = some x.key ∧
          dispositionOperand action count t0 t1 t2 insertion hop = some x.disposition
      | _, _ => False)

/-! ## Laws that every step keeps -/

/-- The laws hold right after reset. -/
def Obligations.LawsHoldAtReset : Prop :=
  MemoryLaw State.reset ∧ StationLaw State.reset ∧ TableLaw State.reset ∧ DequeLaw State.reset ∧
    FixedLaw State.reset ∧ PoolLaw State.reset ∧ CountLaw State.reset ∧ HeldLaw State.reset ∧
    ReceiverLaw State.reset ∧ OwnerLaw State.reset ∧ TransmitterLaw State.reset ∧ UnreadLaw State.reset ∧
    RunLaw State.reset ∧ AdmissionLaw State.reset ∧ WaitingLaw State.reset ∧ EngineLaw State.reset ∧
    ExceptionLaw State.reset ∧ TimerLaw State.reset ∧ CheckLaw State.reset

/-- Every step keeps the cell memory in its canonical form and the station address a station's. -/
def Obligations.MemoryAndStationKept : Prop :=
  ∀ s t : State, MemoryLaw s → StationLaw s → step s = .next t → MemoryLaw t ∧ StationLaw t

/-- Every step keeps VALID entries of sound content free of overlaps (R10; a damaged content: entry 7). -/
def Obligations.TableLawKept : Prop := ∀ s t : State, TableLaw s → step s = .next t → TableLaw t

/-- Every step keeps each deque without repeats, within its limit, and empty when DETACHED; and deques 28 to 31 ACTIVE
with their fixed configuration. -/
def Obligations.DequeLawsKept : Prop :=
  (∀ s t : State, DequeLaw s → step s = .next t → DequeLaw t) ∧
    (∀ s t : State, FixedLaw s → step s = .next t → FixedLaw t)

/-- Every step keeps transmitters of links that are not UP idle, the runs in range, and what each admission under way
holds as its step needs it; and groups wait for a receiver only on an UP link (entry 25). -/
def Obligations.PortLawsKept : Prop :=
  (∀ s t : State, TransmitterLaw s → step s = .next t → TransmitterLaw t) ∧
  (∀ s t : State, RunLaw s → step s = .next t → RunLaw t) ∧
  (∀ s t : State, AdmissionLaw s → step s = .next t → AdmissionLaw t) ∧
  (∀ s t : State, WaitingLaw s → step s = .next t → WaitingLaw t)

/-- Every step keeps each cell in one place and the free-record queue the list of the FREE records. -/
def Obligations.PoolLawKept : Prop :=
  ∀ s t : State, PoolLaw s → ReceiverLaw s → OwnerLaw s → WaitingLaw s → step s = .next t →
    PoolLaw t ∧ ReceiverLaw t ∧ OwnerLaw t

/-- Every step keeps the reference count of every record the number of its holders, at least 1 exactly while HELD; and
what a transmitter has not read the last of the cells of its HELD frame. -/
def Obligations.CountLawKept : Prop :=
  (∀ s t : State, CountLaw s → PoolLaw s → ReceiverLaw s → OwnerLaw s → DequeLaw s → step s = .next t → CountLaw t) ∧
  (∀ s t : State, UnreadLaw s → CountLaw s → PoolLaw s → ReceiverLaw s → OwnerLaw s → DequeLaw s →
    step s = .next t → UnreadLaw t)

/-- Every step keeps the engine's lists within what a reply can carry, and every HELD frame at 8 to 1024 stored bytes in
exactly the cells they need. -/
def Obligations.EngineAndFrameLawsKept : Prop :=
  ∀ s t : State, EngineLaw s → ExceptionLaw s → ReceiverLaw s → HeldLaw s → step s = .next t →
    EngineLaw t ∧ HeldLaw t

/-- Every step keeps the creation list, the distinct sequences and the retry timer's law, and the location of the check
record the most severe kind whose flag is set. -/
def Obligations.ReportingLawsKept : Prop :=
  (∀ s t : State, ExceptionLaw s → TimerLaw s → step s = .next t → ExceptionLaw t ∧ TimerLaw t) ∧
  (∀ s t : State, CheckLaw s → step s = .next t → CheckLaw t)

end
end

