-- ==== Sys2Proof/Laws/State.lean ====
section
/-! SUPPORT. One lemma for each field under each elementary update, and reading back what an update wrote. -/

namespace Sys2Proof.Machine

open Sys2Proof

/-! ## setPort -/

@[simp] theorem setPort_timebase (p : Port) (x : PortState) (s : State) : (s.setPort p x).timebase = s.timebase := rfl

@[simp] theorem setPort_straps (p : Port) (x : PortState) (s : State) : (s.setPort p x).straps = s.straps := rfl

@[simp] theorem setPort_station (p : Port) (x : PortState) (s : State) : (s.setPort p x).station = s.station := rfl

@[simp] theorem setPort_entries (p : Port) (x : PortState) (s : State) : (s.setPort p x).entries = s.entries := rfl

@[simp] theorem setPort_defaults (p : Port) (x : PortState) (s : State) : (s.setPort p x).defaults = s.defaults := rfl

@[simp] theorem setPort_deques (p : Port) (x : PortState) (s : State) : (s.setPort p x).deques = s.deques := rfl

@[simp] theorem setPort_mem (p : Port) (x : PortState) (s : State) : (s.setPort p x).mem = s.mem := rfl

@[simp] theorem setPort_ecc (p : Port) (x : PortState) (s : State) : (s.setPort p x).ecc = s.ecc := rfl

@[simp] theorem setPort_freeCells (p : Port) (x : PortState) (s : State) : (s.setPort p x).freeCells = s.freeCells := rfl

@[simp] theorem setPort_freeRecords (p : Port) (x : PortState) (s : State) : (s.setPort p x).freeRecords = s.freeRecords := rfl

@[simp] theorem setPort_records (p : Port) (x : PortState) (s : State) : (s.setPort p x).records = s.records := rfl

@[simp] theorem setPort_ports (p : Port) (x : PortState) (s : State) : (s.setPort p x).ports = s.ports.set p x := rfl

@[simp] theorem setPort_engine (p : Port) (x : PortState) (s : State) : (s.setPort p x).engine = s.engine := rfl

@[simp] theorem setPort_claim (p : Port) (x : PortState) (s : State) : (s.setPort p x).claim = s.claim := rfl

@[simp] theorem setPort_exc (p : Port) (x : PortState) (s : State) : (s.setPort p x).exc = s.exc := rfl

@[simp] theorem setPort_check (p : Port) (x : PortState) (s : State) : (s.setPort p x).check = s.check := rfl

@[simp] theorem setPort_follow (p : Port) (x : PortState) (s : State) : (s.setPort p x).follow = s.follow := rfl

@[simp] theorem setPort_freeDraws (p : Port) (x : PortState) (s : State) : (s.setPort p x).freeDraws = s.freeDraws := rfl

@[simp] theorem setPort_pending (p : Port) (x : PortState) (s : State) : (s.setPort p x).pending = s.pending := rfl

/-! ## updPort -/

@[simp] theorem updPort_timebase (p : Port) (f : PortState → PortState) (s : State) : (s.updPort p f).timebase = s.timebase := rfl

@[simp] theorem updPort_straps (p : Port) (f : PortState → PortState) (s : State) : (s.updPort p f).straps = s.straps := rfl

@[simp] theorem updPort_station (p : Port) (f : PortState → PortState) (s : State) : (s.updPort p f).station = s.station := rfl

@[simp] theorem updPort_entries (p : Port) (f : PortState → PortState) (s : State) : (s.updPort p f).entries = s.entries := rfl

@[simp] theorem updPort_defaults (p : Port) (f : PortState → PortState) (s : State) : (s.updPort p f).defaults = s.defaults := rfl

@[simp] theorem updPort_deques (p : Port) (f : PortState → PortState) (s : State) : (s.updPort p f).deques = s.deques := rfl

@[simp] theorem updPort_mem (p : Port) (f : PortState → PortState) (s : State) : (s.updPort p f).mem = s.mem := rfl

@[simp] theorem updPort_ecc (p : Port) (f : PortState → PortState) (s : State) : (s.updPort p f).ecc = s.ecc := rfl

@[simp] theorem updPort_freeCells (p : Port) (f : PortState → PortState) (s : State) : (s.updPort p f).freeCells = s.freeCells := rfl

@[simp] theorem updPort_freeRecords (p : Port) (f : PortState → PortState) (s : State) : (s.updPort p f).freeRecords = s.freeRecords := rfl

@[simp] theorem updPort_records (p : Port) (f : PortState → PortState) (s : State) : (s.updPort p f).records = s.records := rfl

@[simp] theorem updPort_ports (p : Port) (f : PortState → PortState) (s : State) : (s.updPort p f).ports = s.ports.set p (f (s.port p)) := rfl

@[simp] theorem updPort_engine (p : Port) (f : PortState → PortState) (s : State) : (s.updPort p f).engine = s.engine := rfl

@[simp] theorem updPort_claim (p : Port) (f : PortState → PortState) (s : State) : (s.updPort p f).claim = s.claim := rfl

@[simp] theorem updPort_exc (p : Port) (f : PortState → PortState) (s : State) : (s.updPort p f).exc = s.exc := rfl

@[simp] theorem updPort_check (p : Port) (f : PortState → PortState) (s : State) : (s.updPort p f).check = s.check := rfl

@[simp] theorem updPort_follow (p : Port) (f : PortState → PortState) (s : State) : (s.updPort p f).follow = s.follow := rfl

@[simp] theorem updPort_freeDraws (p : Port) (f : PortState → PortState) (s : State) : (s.updPort p f).freeDraws = s.freeDraws := rfl

@[simp] theorem updPort_pending (p : Port) (f : PortState → PortState) (s : State) : (s.updPort p f).pending = s.pending := rfl

/-! ## setReceiver -/

@[simp] theorem setReceiver_timebase (p : Port) (x : Receiver) (s : State) : (s.setReceiver p x).timebase = s.timebase := rfl

@[simp] theorem setReceiver_straps (p : Port) (x : Receiver) (s : State) : (s.setReceiver p x).straps = s.straps := rfl

@[simp] theorem setReceiver_station (p : Port) (x : Receiver) (s : State) : (s.setReceiver p x).station = s.station := rfl

@[simp] theorem setReceiver_entries (p : Port) (x : Receiver) (s : State) : (s.setReceiver p x).entries = s.entries := rfl

@[simp] theorem setReceiver_defaults (p : Port) (x : Receiver) (s : State) : (s.setReceiver p x).defaults = s.defaults := rfl

@[simp] theorem setReceiver_deques (p : Port) (x : Receiver) (s : State) : (s.setReceiver p x).deques = s.deques := rfl

@[simp] theorem setReceiver_mem (p : Port) (x : Receiver) (s : State) : (s.setReceiver p x).mem = s.mem := rfl

@[simp] theorem setReceiver_ecc (p : Port) (x : Receiver) (s : State) : (s.setReceiver p x).ecc = s.ecc := rfl

@[simp] theorem setReceiver_freeCells (p : Port) (x : Receiver) (s : State) : (s.setReceiver p x).freeCells = s.freeCells := rfl

@[simp] theorem setReceiver_freeRecords (p : Port) (x : Receiver) (s : State) : (s.setReceiver p x).freeRecords = s.freeRecords := rfl

@[simp] theorem setReceiver_records (p : Port) (x : Receiver) (s : State) : (s.setReceiver p x).records = s.records := rfl

@[simp] theorem setReceiver_ports (p : Port) (x : Receiver) (s : State) : (s.setReceiver p x).ports = s.ports.set p { s.port p with receiver := x } := rfl

@[simp] theorem setReceiver_engine (p : Port) (x : Receiver) (s : State) : (s.setReceiver p x).engine = s.engine := rfl

@[simp] theorem setReceiver_claim (p : Port) (x : Receiver) (s : State) : (s.setReceiver p x).claim = s.claim := rfl

@[simp] theorem setReceiver_exc (p : Port) (x : Receiver) (s : State) : (s.setReceiver p x).exc = s.exc := rfl

@[simp] theorem setReceiver_check (p : Port) (x : Receiver) (s : State) : (s.setReceiver p x).check = s.check := rfl

@[simp] theorem setReceiver_follow (p : Port) (x : Receiver) (s : State) : (s.setReceiver p x).follow = s.follow := rfl

@[simp] theorem setReceiver_freeDraws (p : Port) (x : Receiver) (s : State) : (s.setReceiver p x).freeDraws = s.freeDraws := rfl

@[simp] theorem setReceiver_pending (p : Port) (x : Receiver) (s : State) : (s.setReceiver p x).pending = s.pending := rfl

/-! ## setAdmission -/

@[simp] theorem setAdmission_timebase (p : Port) (x : AdmissionUnit) (s : State) : (s.setAdmission p x).timebase = s.timebase := rfl

@[simp] theorem setAdmission_straps (p : Port) (x : AdmissionUnit) (s : State) : (s.setAdmission p x).straps = s.straps := rfl

@[simp] theorem setAdmission_station (p : Port) (x : AdmissionUnit) (s : State) : (s.setAdmission p x).station = s.station := rfl

@[simp] theorem setAdmission_entries (p : Port) (x : AdmissionUnit) (s : State) : (s.setAdmission p x).entries = s.entries := rfl

@[simp] theorem setAdmission_defaults (p : Port) (x : AdmissionUnit) (s : State) : (s.setAdmission p x).defaults = s.defaults := rfl

@[simp] theorem setAdmission_deques (p : Port) (x : AdmissionUnit) (s : State) : (s.setAdmission p x).deques = s.deques := rfl

@[simp] theorem setAdmission_mem (p : Port) (x : AdmissionUnit) (s : State) : (s.setAdmission p x).mem = s.mem := rfl

@[simp] theorem setAdmission_ecc (p : Port) (x : AdmissionUnit) (s : State) : (s.setAdmission p x).ecc = s.ecc := rfl

@[simp] theorem setAdmission_freeCells (p : Port) (x : AdmissionUnit) (s : State) : (s.setAdmission p x).freeCells = s.freeCells := rfl

@[simp] theorem setAdmission_freeRecords (p : Port) (x : AdmissionUnit) (s : State) : (s.setAdmission p x).freeRecords = s.freeRecords := rfl

@[simp] theorem setAdmission_records (p : Port) (x : AdmissionUnit) (s : State) : (s.setAdmission p x).records = s.records := rfl

@[simp] theorem setAdmission_ports (p : Port) (x : AdmissionUnit) (s : State) : (s.setAdmission p x).ports = s.ports.set p { s.port p with admission := x } := rfl

@[simp] theorem setAdmission_engine (p : Port) (x : AdmissionUnit) (s : State) : (s.setAdmission p x).engine = s.engine := rfl

@[simp] theorem setAdmission_claim (p : Port) (x : AdmissionUnit) (s : State) : (s.setAdmission p x).claim = s.claim := rfl

@[simp] theorem setAdmission_exc (p : Port) (x : AdmissionUnit) (s : State) : (s.setAdmission p x).exc = s.exc := rfl

@[simp] theorem setAdmission_check (p : Port) (x : AdmissionUnit) (s : State) : (s.setAdmission p x).check = s.check := rfl

@[simp] theorem setAdmission_follow (p : Port) (x : AdmissionUnit) (s : State) : (s.setAdmission p x).follow = s.follow := rfl

@[simp] theorem setAdmission_freeDraws (p : Port) (x : AdmissionUnit) (s : State) : (s.setAdmission p x).freeDraws = s.freeDraws := rfl

@[simp] theorem setAdmission_pending (p : Port) (x : AdmissionUnit) (s : State) : (s.setAdmission p x).pending = s.pending := rfl

/-! ## setLink -/

@[simp] theorem setLink_timebase (p : Port) (x : LinkState) (s : State) : (s.setLink p x).timebase = s.timebase := rfl

@[simp] theorem setLink_straps (p : Port) (x : LinkState) (s : State) : (s.setLink p x).straps = s.straps := rfl

@[simp] theorem setLink_station (p : Port) (x : LinkState) (s : State) : (s.setLink p x).station = s.station := rfl

@[simp] theorem setLink_entries (p : Port) (x : LinkState) (s : State) : (s.setLink p x).entries = s.entries := rfl

@[simp] theorem setLink_defaults (p : Port) (x : LinkState) (s : State) : (s.setLink p x).defaults = s.defaults := rfl

@[simp] theorem setLink_deques (p : Port) (x : LinkState) (s : State) : (s.setLink p x).deques = s.deques := rfl

@[simp] theorem setLink_mem (p : Port) (x : LinkState) (s : State) : (s.setLink p x).mem = s.mem := rfl

@[simp] theorem setLink_ecc (p : Port) (x : LinkState) (s : State) : (s.setLink p x).ecc = s.ecc := rfl

@[simp] theorem setLink_freeCells (p : Port) (x : LinkState) (s : State) : (s.setLink p x).freeCells = s.freeCells := rfl

@[simp] theorem setLink_freeRecords (p : Port) (x : LinkState) (s : State) : (s.setLink p x).freeRecords = s.freeRecords := rfl

@[simp] theorem setLink_records (p : Port) (x : LinkState) (s : State) : (s.setLink p x).records = s.records := rfl

@[simp] theorem setLink_ports (p : Port) (x : LinkState) (s : State) : (s.setLink p x).ports = s.ports.set p { s.port p with link := x } := rfl

@[simp] theorem setLink_engine (p : Port) (x : LinkState) (s : State) : (s.setLink p x).engine = s.engine := rfl

@[simp] theorem setLink_claim (p : Port) (x : LinkState) (s : State) : (s.setLink p x).claim = s.claim := rfl

@[simp] theorem setLink_exc (p : Port) (x : LinkState) (s : State) : (s.setLink p x).exc = s.exc := rfl

@[simp] theorem setLink_check (p : Port) (x : LinkState) (s : State) : (s.setLink p x).check = s.check := rfl

@[simp] theorem setLink_follow (p : Port) (x : LinkState) (s : State) : (s.setLink p x).follow = s.follow := rfl

@[simp] theorem setLink_freeDraws (p : Port) (x : LinkState) (s : State) : (s.setLink p x).freeDraws = s.freeDraws := rfl

@[simp] theorem setLink_pending (p : Port) (x : LinkState) (s : State) : (s.setLink p x).pending = s.pending := rfl

/-! ## setTransmitter -/

@[simp] theorem setTransmitter_timebase (p : Port) (x : Transmitter) (s : State) : (s.setTransmitter p x).timebase = s.timebase := rfl

@[simp] theorem setTransmitter_straps (p : Port) (x : Transmitter) (s : State) : (s.setTransmitter p x).straps = s.straps := rfl

@[simp] theorem setTransmitter_station (p : Port) (x : Transmitter) (s : State) : (s.setTransmitter p x).station = s.station := rfl

@[simp] theorem setTransmitter_entries (p : Port) (x : Transmitter) (s : State) : (s.setTransmitter p x).entries = s.entries := rfl

@[simp] theorem setTransmitter_defaults (p : Port) (x : Transmitter) (s : State) : (s.setTransmitter p x).defaults = s.defaults := rfl

@[simp] theorem setTransmitter_deques (p : Port) (x : Transmitter) (s : State) : (s.setTransmitter p x).deques = s.deques := rfl

@[simp] theorem setTransmitter_mem (p : Port) (x : Transmitter) (s : State) : (s.setTransmitter p x).mem = s.mem := rfl

@[simp] theorem setTransmitter_ecc (p : Port) (x : Transmitter) (s : State) : (s.setTransmitter p x).ecc = s.ecc := rfl

@[simp] theorem setTransmitter_freeCells (p : Port) (x : Transmitter) (s : State) : (s.setTransmitter p x).freeCells = s.freeCells := rfl

@[simp] theorem setTransmitter_freeRecords (p : Port) (x : Transmitter) (s : State) : (s.setTransmitter p x).freeRecords = s.freeRecords := rfl

@[simp] theorem setTransmitter_records (p : Port) (x : Transmitter) (s : State) : (s.setTransmitter p x).records = s.records := rfl

@[simp] theorem setTransmitter_ports (p : Port) (x : Transmitter) (s : State) : (s.setTransmitter p x).ports = s.ports.set p { s.port p with transmitter := x } := rfl

@[simp] theorem setTransmitter_engine (p : Port) (x : Transmitter) (s : State) : (s.setTransmitter p x).engine = s.engine := rfl

@[simp] theorem setTransmitter_claim (p : Port) (x : Transmitter) (s : State) : (s.setTransmitter p x).claim = s.claim := rfl

@[simp] theorem setTransmitter_exc (p : Port) (x : Transmitter) (s : State) : (s.setTransmitter p x).exc = s.exc := rfl

@[simp] theorem setTransmitter_check (p : Port) (x : Transmitter) (s : State) : (s.setTransmitter p x).check = s.check := rfl

@[simp] theorem setTransmitter_follow (p : Port) (x : Transmitter) (s : State) : (s.setTransmitter p x).follow = s.follow := rfl

@[simp] theorem setTransmitter_freeDraws (p : Port) (x : Transmitter) (s : State) : (s.setTransmitter p x).freeDraws = s.freeDraws := rfl

@[simp] theorem setTransmitter_pending (p : Port) (x : Transmitter) (s : State) : (s.setTransmitter p x).pending = s.pending := rfl

/-! ## setLineOut -/

@[simp] theorem setLineOut_timebase (p : Port) (x : LineFrame) (s : State) : (s.setLineOut p x).timebase = s.timebase := rfl

@[simp] theorem setLineOut_straps (p : Port) (x : LineFrame) (s : State) : (s.setLineOut p x).straps = s.straps := rfl

@[simp] theorem setLineOut_station (p : Port) (x : LineFrame) (s : State) : (s.setLineOut p x).station = s.station := rfl

@[simp] theorem setLineOut_entries (p : Port) (x : LineFrame) (s : State) : (s.setLineOut p x).entries = s.entries := rfl

@[simp] theorem setLineOut_defaults (p : Port) (x : LineFrame) (s : State) : (s.setLineOut p x).defaults = s.defaults := rfl

@[simp] theorem setLineOut_deques (p : Port) (x : LineFrame) (s : State) : (s.setLineOut p x).deques = s.deques := rfl

@[simp] theorem setLineOut_mem (p : Port) (x : LineFrame) (s : State) : (s.setLineOut p x).mem = s.mem := rfl

@[simp] theorem setLineOut_ecc (p : Port) (x : LineFrame) (s : State) : (s.setLineOut p x).ecc = s.ecc := rfl

@[simp] theorem setLineOut_freeCells (p : Port) (x : LineFrame) (s : State) : (s.setLineOut p x).freeCells = s.freeCells := rfl

@[simp] theorem setLineOut_freeRecords (p : Port) (x : LineFrame) (s : State) : (s.setLineOut p x).freeRecords = s.freeRecords := rfl

@[simp] theorem setLineOut_records (p : Port) (x : LineFrame) (s : State) : (s.setLineOut p x).records = s.records := rfl

@[simp] theorem setLineOut_ports (p : Port) (x : LineFrame) (s : State) : (s.setLineOut p x).ports = s.ports.set p { s.port p with lineOut := some x } := rfl

@[simp] theorem setLineOut_engine (p : Port) (x : LineFrame) (s : State) : (s.setLineOut p x).engine = s.engine := rfl

@[simp] theorem setLineOut_claim (p : Port) (x : LineFrame) (s : State) : (s.setLineOut p x).claim = s.claim := rfl

@[simp] theorem setLineOut_exc (p : Port) (x : LineFrame) (s : State) : (s.setLineOut p x).exc = s.exc := rfl

@[simp] theorem setLineOut_check (p : Port) (x : LineFrame) (s : State) : (s.setLineOut p x).check = s.check := rfl

@[simp] theorem setLineOut_follow (p : Port) (x : LineFrame) (s : State) : (s.setLineOut p x).follow = s.follow := rfl

@[simp] theorem setLineOut_freeDraws (p : Port) (x : LineFrame) (s : State) : (s.setLineOut p x).freeDraws = s.freeDraws := rfl

@[simp] theorem setLineOut_pending (p : Port) (x : LineFrame) (s : State) : (s.setLineOut p x).pending = s.pending := rfl

/-! ## setHeld -/

@[simp] theorem setHeld_timebase (p : Port) (b : Bool) (s : State) : (s.setHeld p b).timebase = s.timebase := rfl

@[simp] theorem setHeld_straps (p : Port) (b : Bool) (s : State) : (s.setHeld p b).straps = s.straps := rfl

@[simp] theorem setHeld_station (p : Port) (b : Bool) (s : State) : (s.setHeld p b).station = s.station := rfl

@[simp] theorem setHeld_entries (p : Port) (b : Bool) (s : State) : (s.setHeld p b).entries = s.entries := rfl

@[simp] theorem setHeld_defaults (p : Port) (b : Bool) (s : State) : (s.setHeld p b).defaults = s.defaults := rfl

@[simp] theorem setHeld_deques (p : Port) (b : Bool) (s : State) : (s.setHeld p b).deques = s.deques := rfl

@[simp] theorem setHeld_mem (p : Port) (b : Bool) (s : State) : (s.setHeld p b).mem = s.mem := rfl

@[simp] theorem setHeld_ecc (p : Port) (b : Bool) (s : State) : (s.setHeld p b).ecc = s.ecc := rfl

@[simp] theorem setHeld_freeCells (p : Port) (b : Bool) (s : State) : (s.setHeld p b).freeCells = s.freeCells := rfl

@[simp] theorem setHeld_freeRecords (p : Port) (b : Bool) (s : State) : (s.setHeld p b).freeRecords = s.freeRecords := rfl

@[simp] theorem setHeld_records (p : Port) (b : Bool) (s : State) : (s.setHeld p b).records = s.records := rfl

@[simp] theorem setHeld_ports (p : Port) (b : Bool) (s : State) : (s.setHeld p b).ports = s.ports.set p { s.port p with held := b } := rfl

@[simp] theorem setHeld_engine (p : Port) (b : Bool) (s : State) : (s.setHeld p b).engine = s.engine := rfl

@[simp] theorem setHeld_claim (p : Port) (b : Bool) (s : State) : (s.setHeld p b).claim = s.claim := rfl

@[simp] theorem setHeld_exc (p : Port) (b : Bool) (s : State) : (s.setHeld p b).exc = s.exc := rfl

@[simp] theorem setHeld_check (p : Port) (b : Bool) (s : State) : (s.setHeld p b).check = s.check := rfl

@[simp] theorem setHeld_follow (p : Port) (b : Bool) (s : State) : (s.setHeld p b).follow = s.follow := rfl

@[simp] theorem setHeld_freeDraws (p : Port) (b : Bool) (s : State) : (s.setHeld p b).freeDraws = s.freeDraws := rfl

@[simp] theorem setHeld_pending (p : Port) (b : Bool) (s : State) : (s.setHeld p b).pending = s.pending := rfl

/-! ## setDeque -/

@[simp] theorem setDeque_timebase (d : DequeNo) (x : Deque) (s : State) : (s.setDeque d x).timebase = s.timebase := rfl

@[simp] theorem setDeque_straps (d : DequeNo) (x : Deque) (s : State) : (s.setDeque d x).straps = s.straps := rfl

@[simp] theorem setDeque_station (d : DequeNo) (x : Deque) (s : State) : (s.setDeque d x).station = s.station := rfl

@[simp] theorem setDeque_entries (d : DequeNo) (x : Deque) (s : State) : (s.setDeque d x).entries = s.entries := rfl

@[simp] theorem setDeque_defaults (d : DequeNo) (x : Deque) (s : State) : (s.setDeque d x).defaults = s.defaults := rfl

@[simp] theorem setDeque_deques (d : DequeNo) (x : Deque) (s : State) : (s.setDeque d x).deques = s.deques.set d.val x d.isLt := rfl

@[simp] theorem setDeque_mem (d : DequeNo) (x : Deque) (s : State) : (s.setDeque d x).mem = s.mem := rfl

@[simp] theorem setDeque_ecc (d : DequeNo) (x : Deque) (s : State) : (s.setDeque d x).ecc = s.ecc := rfl

@[simp] theorem setDeque_freeCells (d : DequeNo) (x : Deque) (s : State) : (s.setDeque d x).freeCells = s.freeCells := rfl

@[simp] theorem setDeque_freeRecords (d : DequeNo) (x : Deque) (s : State) : (s.setDeque d x).freeRecords = s.freeRecords := rfl

@[simp] theorem setDeque_records (d : DequeNo) (x : Deque) (s : State) : (s.setDeque d x).records = s.records := rfl

@[simp] theorem setDeque_ports (d : DequeNo) (x : Deque) (s : State) : (s.setDeque d x).ports = s.ports := rfl

@[simp] theorem setDeque_engine (d : DequeNo) (x : Deque) (s : State) : (s.setDeque d x).engine = s.engine := rfl

@[simp] theorem setDeque_claim (d : DequeNo) (x : Deque) (s : State) : (s.setDeque d x).claim = s.claim := rfl

@[simp] theorem setDeque_exc (d : DequeNo) (x : Deque) (s : State) : (s.setDeque d x).exc = s.exc := rfl

@[simp] theorem setDeque_check (d : DequeNo) (x : Deque) (s : State) : (s.setDeque d x).check = s.check := rfl

@[simp] theorem setDeque_follow (d : DequeNo) (x : Deque) (s : State) : (s.setDeque d x).follow = s.follow := rfl

@[simp] theorem setDeque_freeDraws (d : DequeNo) (x : Deque) (s : State) : (s.setDeque d x).freeDraws = s.freeDraws := rfl

@[simp] theorem setDeque_pending (d : DequeNo) (x : Deque) (s : State) : (s.setDeque d x).pending = s.pending := rfl

/-! ## setDequeState -/

@[simp] theorem setDequeState_timebase (d : DequeNo) (x : DequeState) (s : State) : (s.setDequeState d x).timebase = s.timebase := rfl

@[simp] theorem setDequeState_straps (d : DequeNo) (x : DequeState) (s : State) : (s.setDequeState d x).straps = s.straps := rfl

@[simp] theorem setDequeState_station (d : DequeNo) (x : DequeState) (s : State) : (s.setDequeState d x).station = s.station := rfl

@[simp] theorem setDequeState_entries (d : DequeNo) (x : DequeState) (s : State) : (s.setDequeState d x).entries = s.entries := rfl

@[simp] theorem setDequeState_defaults (d : DequeNo) (x : DequeState) (s : State) : (s.setDequeState d x).defaults = s.defaults := rfl

@[simp] theorem setDequeState_deques (d : DequeNo) (x : DequeState) (s : State) : (s.setDequeState d x).deques = s.deques.set d.val { s.deque d with state := x } d.isLt := rfl

@[simp] theorem setDequeState_mem (d : DequeNo) (x : DequeState) (s : State) : (s.setDequeState d x).mem = s.mem := rfl

@[simp] theorem setDequeState_ecc (d : DequeNo) (x : DequeState) (s : State) : (s.setDequeState d x).ecc = s.ecc := rfl

@[simp] theorem setDequeState_freeCells (d : DequeNo) (x : DequeState) (s : State) : (s.setDequeState d x).freeCells = s.freeCells := rfl

@[simp] theorem setDequeState_freeRecords (d : DequeNo) (x : DequeState) (s : State) : (s.setDequeState d x).freeRecords = s.freeRecords := rfl

@[simp] theorem setDequeState_records (d : DequeNo) (x : DequeState) (s : State) : (s.setDequeState d x).records = s.records := rfl

@[simp] theorem setDequeState_ports (d : DequeNo) (x : DequeState) (s : State) : (s.setDequeState d x).ports = s.ports := rfl

@[simp] theorem setDequeState_engine (d : DequeNo) (x : DequeState) (s : State) : (s.setDequeState d x).engine = s.engine := rfl

@[simp] theorem setDequeState_claim (d : DequeNo) (x : DequeState) (s : State) : (s.setDequeState d x).claim = s.claim := rfl

@[simp] theorem setDequeState_exc (d : DequeNo) (x : DequeState) (s : State) : (s.setDequeState d x).exc = s.exc := rfl

@[simp] theorem setDequeState_check (d : DequeNo) (x : DequeState) (s : State) : (s.setDequeState d x).check = s.check := rfl

@[simp] theorem setDequeState_follow (d : DequeNo) (x : DequeState) (s : State) : (s.setDequeState d x).follow = s.follow := rfl

@[simp] theorem setDequeState_freeDraws (d : DequeNo) (x : DequeState) (s : State) : (s.setDequeState d x).freeDraws = s.freeDraws := rfl

@[simp] theorem setDequeState_pending (d : DequeNo) (x : DequeState) (s : State) : (s.setDequeState d x).pending = s.pending := rfl

/-! ## setEntry -/

@[simp] theorem setEntry_timebase (i : EntryNo) (x : Entry) (s : State) : (s.setEntry i x).timebase = s.timebase := rfl

@[simp] theorem setEntry_straps (i : EntryNo) (x : Entry) (s : State) : (s.setEntry i x).straps = s.straps := rfl

@[simp] theorem setEntry_station (i : EntryNo) (x : Entry) (s : State) : (s.setEntry i x).station = s.station := rfl

@[simp] theorem setEntry_entries (i : EntryNo) (x : Entry) (s : State) : (s.setEntry i x).entries = s.entries.set i.val x i.isLt := rfl

@[simp] theorem setEntry_defaults (i : EntryNo) (x : Entry) (s : State) : (s.setEntry i x).defaults = s.defaults := rfl

@[simp] theorem setEntry_deques (i : EntryNo) (x : Entry) (s : State) : (s.setEntry i x).deques = s.deques := rfl

@[simp] theorem setEntry_mem (i : EntryNo) (x : Entry) (s : State) : (s.setEntry i x).mem = s.mem := rfl

@[simp] theorem setEntry_ecc (i : EntryNo) (x : Entry) (s : State) : (s.setEntry i x).ecc = s.ecc := rfl

@[simp] theorem setEntry_freeCells (i : EntryNo) (x : Entry) (s : State) : (s.setEntry i x).freeCells = s.freeCells := rfl

@[simp] theorem setEntry_freeRecords (i : EntryNo) (x : Entry) (s : State) : (s.setEntry i x).freeRecords = s.freeRecords := rfl

@[simp] theorem setEntry_records (i : EntryNo) (x : Entry) (s : State) : (s.setEntry i x).records = s.records := rfl

@[simp] theorem setEntry_ports (i : EntryNo) (x : Entry) (s : State) : (s.setEntry i x).ports = s.ports := rfl

@[simp] theorem setEntry_engine (i : EntryNo) (x : Entry) (s : State) : (s.setEntry i x).engine = s.engine := rfl

@[simp] theorem setEntry_claim (i : EntryNo) (x : Entry) (s : State) : (s.setEntry i x).claim = s.claim := rfl

@[simp] theorem setEntry_exc (i : EntryNo) (x : Entry) (s : State) : (s.setEntry i x).exc = s.exc := rfl

@[simp] theorem setEntry_check (i : EntryNo) (x : Entry) (s : State) : (s.setEntry i x).check = s.check := rfl

@[simp] theorem setEntry_follow (i : EntryNo) (x : Entry) (s : State) : (s.setEntry i x).follow = s.follow := rfl

@[simp] theorem setEntry_freeDraws (i : EntryNo) (x : Entry) (s : State) : (s.setEntry i x).freeDraws = s.freeDraws := rfl

@[simp] theorem setEntry_pending (i : EntryNo) (x : Entry) (s : State) : (s.setEntry i x).pending = s.pending := rfl

/-! ## setRecord -/

@[simp] theorem setRecord_timebase (r : RecordNo) (x : FrameRecord) (s : State) : (s.setRecord r x).timebase = s.timebase := rfl

@[simp] theorem setRecord_straps (r : RecordNo) (x : FrameRecord) (s : State) : (s.setRecord r x).straps = s.straps := rfl

@[simp] theorem setRecord_station (r : RecordNo) (x : FrameRecord) (s : State) : (s.setRecord r x).station = s.station := rfl

@[simp] theorem setRecord_entries (r : RecordNo) (x : FrameRecord) (s : State) : (s.setRecord r x).entries = s.entries := rfl

@[simp] theorem setRecord_defaults (r : RecordNo) (x : FrameRecord) (s : State) : (s.setRecord r x).defaults = s.defaults := rfl

@[simp] theorem setRecord_deques (r : RecordNo) (x : FrameRecord) (s : State) : (s.setRecord r x).deques = s.deques := rfl

@[simp] theorem setRecord_mem (r : RecordNo) (x : FrameRecord) (s : State) : (s.setRecord r x).mem = s.mem := rfl

@[simp] theorem setRecord_ecc (r : RecordNo) (x : FrameRecord) (s : State) : (s.setRecord r x).ecc = s.ecc := rfl

@[simp] theorem setRecord_freeCells (r : RecordNo) (x : FrameRecord) (s : State) : (s.setRecord r x).freeCells = s.freeCells := rfl

@[simp] theorem setRecord_freeRecords (r : RecordNo) (x : FrameRecord) (s : State) : (s.setRecord r x).freeRecords = s.freeRecords := rfl

@[simp] theorem setRecord_records (r : RecordNo) (x : FrameRecord) (s : State) : (s.setRecord r x).records = s.records.set r.val x r.isLt := rfl

@[simp] theorem setRecord_ports (r : RecordNo) (x : FrameRecord) (s : State) : (s.setRecord r x).ports = s.ports := rfl

@[simp] theorem setRecord_engine (r : RecordNo) (x : FrameRecord) (s : State) : (s.setRecord r x).engine = s.engine := rfl

@[simp] theorem setRecord_claim (r : RecordNo) (x : FrameRecord) (s : State) : (s.setRecord r x).claim = s.claim := rfl

@[simp] theorem setRecord_exc (r : RecordNo) (x : FrameRecord) (s : State) : (s.setRecord r x).exc = s.exc := rfl

@[simp] theorem setRecord_check (r : RecordNo) (x : FrameRecord) (s : State) : (s.setRecord r x).check = s.check := rfl

@[simp] theorem setRecord_follow (r : RecordNo) (x : FrameRecord) (s : State) : (s.setRecord r x).follow = s.follow := rfl

@[simp] theorem setRecord_freeDraws (r : RecordNo) (x : FrameRecord) (s : State) : (s.setRecord r x).freeDraws = s.freeDraws := rfl

@[simp] theorem setRecord_pending (r : RecordNo) (x : FrameRecord) (s : State) : (s.setRecord r x).pending = s.pending := rfl

/-! ## setEcc -/

@[simp] theorem setEcc_timebase (c : CellNo) (x : Ecc) (s : State) : (s.setEcc c x).timebase = s.timebase := rfl

@[simp] theorem setEcc_straps (c : CellNo) (x : Ecc) (s : State) : (s.setEcc c x).straps = s.straps := rfl

@[simp] theorem setEcc_station (c : CellNo) (x : Ecc) (s : State) : (s.setEcc c x).station = s.station := rfl

@[simp] theorem setEcc_entries (c : CellNo) (x : Ecc) (s : State) : (s.setEcc c x).entries = s.entries := rfl

@[simp] theorem setEcc_defaults (c : CellNo) (x : Ecc) (s : State) : (s.setEcc c x).defaults = s.defaults := rfl

@[simp] theorem setEcc_deques (c : CellNo) (x : Ecc) (s : State) : (s.setEcc c x).deques = s.deques := rfl

@[simp] theorem setEcc_mem (c : CellNo) (x : Ecc) (s : State) : (s.setEcc c x).mem = s.mem := rfl

@[simp] theorem setEcc_ecc (c : CellNo) (x : Ecc) (s : State) : (s.setEcc c x).ecc = s.ecc.set c.val x c.isLt := rfl

@[simp] theorem setEcc_freeCells (c : CellNo) (x : Ecc) (s : State) : (s.setEcc c x).freeCells = s.freeCells := rfl

@[simp] theorem setEcc_freeRecords (c : CellNo) (x : Ecc) (s : State) : (s.setEcc c x).freeRecords = s.freeRecords := rfl

@[simp] theorem setEcc_records (c : CellNo) (x : Ecc) (s : State) : (s.setEcc c x).records = s.records := rfl

@[simp] theorem setEcc_ports (c : CellNo) (x : Ecc) (s : State) : (s.setEcc c x).ports = s.ports := rfl

@[simp] theorem setEcc_engine (c : CellNo) (x : Ecc) (s : State) : (s.setEcc c x).engine = s.engine := rfl

@[simp] theorem setEcc_claim (c : CellNo) (x : Ecc) (s : State) : (s.setEcc c x).claim = s.claim := rfl

@[simp] theorem setEcc_exc (c : CellNo) (x : Ecc) (s : State) : (s.setEcc c x).exc = s.exc := rfl

@[simp] theorem setEcc_check (c : CellNo) (x : Ecc) (s : State) : (s.setEcc c x).check = s.check := rfl

@[simp] theorem setEcc_follow (c : CellNo) (x : Ecc) (s : State) : (s.setEcc c x).follow = s.follow := rfl

@[simp] theorem setEcc_freeDraws (c : CellNo) (x : Ecc) (s : State) : (s.setEcc c x).freeDraws = s.freeDraws := rfl

@[simp] theorem setEcc_pending (c : CellNo) (x : Ecc) (s : State) : (s.setEcc c x).pending = s.pending := rfl

/-! ## freeFrame -/

@[simp] theorem freeFrame_timebase (r : RecordNo) (cells : List CellNo) (s : State) : (s.freeFrame r cells).timebase = s.timebase := rfl

@[simp] theorem freeFrame_straps (r : RecordNo) (cells : List CellNo) (s : State) : (s.freeFrame r cells).straps = s.straps := rfl

@[simp] theorem freeFrame_station (r : RecordNo) (cells : List CellNo) (s : State) : (s.freeFrame r cells).station = s.station := rfl

@[simp] theorem freeFrame_entries (r : RecordNo) (cells : List CellNo) (s : State) : (s.freeFrame r cells).entries = s.entries := rfl

@[simp] theorem freeFrame_defaults (r : RecordNo) (cells : List CellNo) (s : State) : (s.freeFrame r cells).defaults = s.defaults := rfl

@[simp] theorem freeFrame_deques (r : RecordNo) (cells : List CellNo) (s : State) : (s.freeFrame r cells).deques = s.deques := rfl

@[simp] theorem freeFrame_mem (r : RecordNo) (cells : List CellNo) (s : State) : (s.freeFrame r cells).mem = s.mem := rfl

@[simp] theorem freeFrame_ecc (r : RecordNo) (cells : List CellNo) (s : State) : (s.freeFrame r cells).ecc = s.ecc := rfl

@[simp] theorem freeFrame_freeCells (r : RecordNo) (cells : List CellNo) (s : State) : (s.freeFrame r cells).freeCells = s.freeCells ++ cells := rfl

@[simp] theorem freeFrame_freeRecords (r : RecordNo) (cells : List CellNo) (s : State) : (s.freeFrame r cells).freeRecords = s.freeRecords ++ [r] := rfl

@[simp] theorem freeFrame_records (r : RecordNo) (cells : List CellNo) (s : State) : (s.freeFrame r cells).records = s.records.set r.val .free r.isLt := rfl

@[simp] theorem freeFrame_ports (r : RecordNo) (cells : List CellNo) (s : State) : (s.freeFrame r cells).ports = s.ports := rfl

@[simp] theorem freeFrame_engine (r : RecordNo) (cells : List CellNo) (s : State) : (s.freeFrame r cells).engine = s.engine := rfl

@[simp] theorem freeFrame_claim (r : RecordNo) (cells : List CellNo) (s : State) : (s.freeFrame r cells).claim = s.claim := rfl

@[simp] theorem freeFrame_exc (r : RecordNo) (cells : List CellNo) (s : State) : (s.freeFrame r cells).exc = s.exc := rfl

@[simp] theorem freeFrame_check (r : RecordNo) (cells : List CellNo) (s : State) : (s.freeFrame r cells).check = s.check := rfl

@[simp] theorem freeFrame_follow (r : RecordNo) (cells : List CellNo) (s : State) : (s.freeFrame r cells).follow = s.follow := rfl

@[simp] theorem freeFrame_freeDraws (r : RecordNo) (cells : List CellNo) (s : State) : (s.freeFrame r cells).freeDraws = s.freeDraws := rfl

@[simp] theorem freeFrame_pending (r : RecordNo) (cells : List CellNo) (s : State) : (s.freeFrame r cells).pending = s.pending := rfl

/-! ## raise -/

@[simp] theorem raise_timebase (c : Instr) (s : State) : (s.raise c).timebase = s.timebase := rfl

@[simp] theorem raise_straps (c : Instr) (s : State) : (s.raise c).straps = s.straps := rfl

@[simp] theorem raise_station (c : Instr) (s : State) : (s.raise c).station = s.station := rfl

@[simp] theorem raise_entries (c : Instr) (s : State) : (s.raise c).entries = s.entries := rfl

@[simp] theorem raise_defaults (c : Instr) (s : State) : (s.raise c).defaults = s.defaults := rfl

@[simp] theorem raise_deques (c : Instr) (s : State) : (s.raise c).deques = s.deques := rfl

@[simp] theorem raise_mem (c : Instr) (s : State) : (s.raise c).mem = s.mem := rfl

@[simp] theorem raise_ecc (c : Instr) (s : State) : (s.raise c).ecc = s.ecc := rfl

@[simp] theorem raise_freeCells (c : Instr) (s : State) : (s.raise c).freeCells = s.freeCells := rfl

@[simp] theorem raise_freeRecords (c : Instr) (s : State) : (s.raise c).freeRecords = s.freeRecords := rfl

@[simp] theorem raise_records (c : Instr) (s : State) : (s.raise c).records = s.records := rfl

@[simp] theorem raise_ports (c : Instr) (s : State) : (s.raise c).ports = s.ports := rfl

@[simp] theorem raise_engine (c : Instr) (s : State) : (s.raise c).engine = s.engine := rfl

@[simp] theorem raise_claim (c : Instr) (s : State) : (s.raise c).claim = s.claim := rfl

@[simp] theorem raise_exc (c : Instr) (s : State) : (s.raise c).exc = s.exc := rfl

@[simp] theorem raise_check (c : Instr) (s : State) : (s.raise c).check = s.check := rfl

@[simp] theorem raise_follow (c : Instr) (s : State) : (s.raise c).follow = s.follow ++ [c] := rfl

@[simp] theorem raise_freeDraws (c : Instr) (s : State) : (s.raise c).freeDraws = s.freeDraws := rfl

@[simp] theorem raise_pending (c : Instr) (s : State) : (s.raise c).pending = s.pending := rfl

/-! ## settle -/

@[simp] theorem settle_timebase (c : Instr) (s : State) : (s.settle c).timebase = s.timebase := rfl

@[simp] theorem settle_straps (c : Instr) (s : State) : (s.settle c).straps = s.straps := rfl

@[simp] theorem settle_station (c : Instr) (s : State) : (s.settle c).station = s.station := rfl

@[simp] theorem settle_entries (c : Instr) (s : State) : (s.settle c).entries = s.entries := rfl

@[simp] theorem settle_defaults (c : Instr) (s : State) : (s.settle c).defaults = s.defaults := rfl

@[simp] theorem settle_deques (c : Instr) (s : State) : (s.settle c).deques = s.deques := rfl

@[simp] theorem settle_mem (c : Instr) (s : State) : (s.settle c).mem = s.mem := rfl

@[simp] theorem settle_ecc (c : Instr) (s : State) : (s.settle c).ecc = s.ecc := rfl

@[simp] theorem settle_freeCells (c : Instr) (s : State) : (s.settle c).freeCells = s.freeCells := rfl

@[simp] theorem settle_freeRecords (c : Instr) (s : State) : (s.settle c).freeRecords = s.freeRecords := rfl

@[simp] theorem settle_records (c : Instr) (s : State) : (s.settle c).records = s.records := rfl

@[simp] theorem settle_ports (c : Instr) (s : State) : (s.settle c).ports = s.ports := rfl

@[simp] theorem settle_engine (c : Instr) (s : State) : (s.settle c).engine = s.engine := rfl

@[simp] theorem settle_claim (c : Instr) (s : State) : (s.settle c).claim = s.claim := rfl

@[simp] theorem settle_exc (c : Instr) (s : State) : (s.settle c).exc = s.exc := rfl

@[simp] theorem settle_check (c : Instr) (s : State) : (s.settle c).check = s.check := rfl

@[simp] theorem settle_follow (c : Instr) (s : State) : (s.settle c).follow = s.follow.erase c := rfl

@[simp] theorem settle_freeDraws (c : Instr) (s : State) : (s.settle c).freeDraws = s.freeDraws := rfl

@[simp] theorem settle_pending (c : Instr) (s : State) : (s.settle c).pending = s.pending := rfl

/-! ## drawn -/

@[simp] theorem drawn_timebase (s : State) : s.drawn.timebase = s.timebase := rfl

@[simp] theorem drawn_straps (s : State) : s.drawn.straps = s.straps := rfl

@[simp] theorem drawn_station (s : State) : s.drawn.station = s.station := rfl

@[simp] theorem drawn_entries (s : State) : s.drawn.entries = s.entries := rfl

@[simp] theorem drawn_defaults (s : State) : s.drawn.defaults = s.defaults := rfl

@[simp] theorem drawn_deques (s : State) : s.drawn.deques = s.deques := rfl

@[simp] theorem drawn_mem (s : State) : s.drawn.mem = s.mem := rfl

@[simp] theorem drawn_ecc (s : State) : s.drawn.ecc = s.ecc := rfl

@[simp] theorem drawn_freeCells (s : State) : s.drawn.freeCells = s.freeCells := rfl

@[simp] theorem drawn_freeRecords (s : State) : s.drawn.freeRecords = s.freeRecords := rfl

@[simp] theorem drawn_records (s : State) : s.drawn.records = s.records := rfl

@[simp] theorem drawn_ports (s : State) : s.drawn.ports = s.ports := rfl

@[simp] theorem drawn_engine (s : State) : s.drawn.engine = s.engine := rfl

@[simp] theorem drawn_claim (s : State) : s.drawn.claim = s.claim := rfl

@[simp] theorem drawn_exc (s : State) : s.drawn.exc = s.exc := rfl

@[simp] theorem drawn_check (s : State) : s.drawn.check = s.check := rfl

@[simp] theorem drawn_follow (s : State) : s.drawn.follow = s.follow := rfl

@[simp] theorem drawn_freeDraws (s : State) : s.drawn.freeDraws = s.freeDraws + 1 := rfl

@[simp] theorem drawn_pending (s : State) : s.drawn.pending = s.pending := rfl

/-! ## syncTimer -/

@[simp] theorem syncTimer_timebase (s : State) : s.syncTimer.timebase = s.timebase := rfl

@[simp] theorem syncTimer_straps (s : State) : s.syncTimer.straps = s.straps := rfl

@[simp] theorem syncTimer_station (s : State) : s.syncTimer.station = s.station := rfl

@[simp] theorem syncTimer_entries (s : State) : s.syncTimer.entries = s.entries := rfl

@[simp] theorem syncTimer_defaults (s : State) : s.syncTimer.defaults = s.defaults := rfl

@[simp] theorem syncTimer_deques (s : State) : s.syncTimer.deques = s.deques := rfl

@[simp] theorem syncTimer_mem (s : State) : s.syncTimer.mem = s.mem := rfl

@[simp] theorem syncTimer_ecc (s : State) : s.syncTimer.ecc = s.ecc := rfl

@[simp] theorem syncTimer_freeCells (s : State) : s.syncTimer.freeCells = s.freeCells := rfl

@[simp] theorem syncTimer_freeRecords (s : State) : s.syncTimer.freeRecords = s.freeRecords := rfl

@[simp] theorem syncTimer_records (s : State) : s.syncTimer.records = s.records := rfl

@[simp] theorem syncTimer_ports (s : State) : s.syncTimer.ports = s.ports := rfl

@[simp] theorem syncTimer_engine (s : State) : s.syncTimer.engine = s.engine := rfl

@[simp] theorem syncTimer_claim (s : State) : s.syncTimer.claim = s.claim := rfl

@[simp] theorem syncTimer_check (s : State) : s.syncTimer.check = s.check := rfl

@[simp] theorem syncTimer_follow (s : State) : s.syncTimer.follow = s.follow := rfl

@[simp] theorem syncTimer_freeDraws (s : State) : s.syncTimer.freeDraws = s.freeDraws := rfl

@[simp] theorem syncTimer_pending (s : State) : s.syncTimer.pending = s.pending := rfl

/-! ## Reading back -/

@[simp] theorem PerPort.get_set_same {α : Type} (x : PerPort α) (p : Port) (v : α) : (x.set p v).get p = v := by
  cases p <;> rfl

theorem PerPort.get_set_of_ne {α : Type} (x : PerPort α) {p q : Port} (v : α) (h : q ≠ p) :
    (x.set p v).get q = x.get q := by
  cases p <;> cases q <;> first | rfl | exact absurd rfl h

theorem PerPort.set_set {α : Type} (x : PerPort α) (p : Port) (u v : α) : (x.set p u).set p v = x.set p v := by
  cases p <;> rfl

@[simp] theorem setPort_port_same (p : Port) (x : PortState) (s : State) : (s.setPort p x).port p = x := by
  simp [State.port]

theorem setPort_port_of_ne {p q : Port} (x : PortState) (s : State) (h : q ≠ p) :
    (s.setPort p x).port q = s.port q := by
  simp [State.port, PerPort.get_set_of_ne _ _ h]

@[simp] theorem updPort_port_same (p : Port) (f : PortState → PortState) (s : State) :
    (s.updPort p f).port p = f (s.port p) := by
  simp [State.updPort]

theorem updPort_port_of_ne {p q : Port} (f : PortState → PortState) (s : State) (h : q ≠ p) :
    (s.updPort p f).port q = s.port q :=
  setPort_port_of_ne _ s h

@[simp] theorem setDeque_deque_same (d : DequeNo) (x : Deque) (s : State) : (s.setDeque d x).deque d = x := by
  simp [State.deque]

theorem setDeque_deque_of_ne {d e : DequeNo} (x : Deque) (s : State) (h : e ≠ d) :
    (s.setDeque d x).deque e = s.deque e := by
  have : d.val ≠ e.val := fun g => h (Fin.ext g.symm)
  simp [State.deque, this]

@[simp] theorem setEntry_entry_same (i : EntryNo) (x : Entry) (s : State) : (s.setEntry i x).entry i = x := by
  simp [State.entry]

theorem setEntry_entry_of_ne {i j : EntryNo} (x : Entry) (s : State) (h : j ≠ i) :
    (s.setEntry i x).entry j = s.entry j := by
  have : i.val ≠ j.val := fun g => h (Fin.ext g.symm)
  simp [State.entry, this]

@[simp] theorem setRecord_record_same (r : RecordNo) (x : FrameRecord) (s : State) : (s.setRecord r x).record r = x := by
  simp [State.record]

theorem setRecord_record_of_ne {r q : RecordNo} (x : FrameRecord) (s : State) (h : q ≠ r) :
    (s.setRecord r x).record q = s.record q := by
  have : r.val ≠ q.val := fun g => h (Fin.ext g.symm)
  simp [State.record, this]

@[simp] theorem setEcc_eccOf_same (c : CellNo) (x : Ecc) (s : State) : (s.setEcc c x).eccOf c = x := by
  simp [State.eccOf]

theorem setEcc_eccOf_of_ne {c e : CellNo} (x : Ecc) (s : State) (h : e ≠ c) :
    (s.setEcc c x).eccOf e = s.eccOf e := by
  have : c.val ≠ e.val := fun g => h (Fin.ext g.symm)
  simp [State.eccOf, this]

end Sys2Proof.Machine
end

