-- ==== Sys2Proof/Laws/Ops.lean ====
section
/-! SUPPORT. What each shared operation can do: the fields it may change (a `shape` lemma says the rest stays), and its
outcome in each case. -/

namespace Sys2Proof.Machine

open Sys2Proof

@[simp] theorem request_timebase (q : Request) (s : State) : ((s.request q).2).timebase = s.timebase := by
  unfold State.request; (repeat' split) <;> simp
@[simp] theorem request_straps (q : Request) (s : State) : ((s.request q).2).straps = s.straps := by
  unfold State.request; (repeat' split) <;> simp
@[simp] theorem request_station (q : Request) (s : State) : ((s.request q).2).station = s.station := by
  unfold State.request; (repeat' split) <;> simp
@[simp] theorem request_entries (q : Request) (s : State) : ((s.request q).2).entries = s.entries := by
  unfold State.request; (repeat' split) <;> simp
@[simp] theorem request_defaults (q : Request) (s : State) : ((s.request q).2).defaults = s.defaults := by
  unfold State.request; (repeat' split) <;> simp
@[simp] theorem request_deques (q : Request) (s : State) : ((s.request q).2).deques = s.deques := by
  unfold State.request; (repeat' split) <;> simp
@[simp] theorem request_mem (q : Request) (s : State) : ((s.request q).2).mem = s.mem := by
  unfold State.request; (repeat' split) <;> simp
@[simp] theorem request_ecc (q : Request) (s : State) : ((s.request q).2).ecc = s.ecc := by
  unfold State.request; (repeat' split) <;> simp
@[simp] theorem request_freeCells (q : Request) (s : State) : ((s.request q).2).freeCells = s.freeCells := by
  unfold State.request; (repeat' split) <;> simp
@[simp] theorem request_freeRecords (q : Request) (s : State) : ((s.request q).2).freeRecords = s.freeRecords := by
  unfold State.request; (repeat' split) <;> simp
@[simp] theorem request_records (q : Request) (s : State) : ((s.request q).2).records = s.records := by
  unfold State.request; (repeat' split) <;> simp
@[simp] theorem request_ports (q : Request) (s : State) : ((s.request q).2).ports = s.ports := by
  unfold State.request; (repeat' split) <;> simp
@[simp] theorem request_engine (q : Request) (s : State) : ((s.request q).2).engine = s.engine := by
  unfold State.request; (repeat' split) <;> simp
@[simp] theorem request_claim (q : Request) (s : State) : ((s.request q).2).claim = s.claim := by
  unfold State.request; (repeat' split) <;> simp
@[simp] theorem request_check (q : Request) (s : State) : ((s.request q).2).check = s.check := by
  unfold State.request; (repeat' split) <;> simp
@[simp] theorem request_freeDraws (q : Request) (s : State) : ((s.request q).2).freeDraws = s.freeDraws := by
  unfold State.request; (repeat' split) <;> simp
@[simp] theorem request_pending (q : Request) (s : State) : ((s.request q).2).pending = s.pending := by
  unfold State.request; (repeat' split) <;> simp

/-- All that `request` may change. -/
theorem request_shape (q : Request) (s : State) :
    (s.request q).2 = { s with exc := ((s.request q).2).exc, follow := ((s.request q).2).follow } := by
  ext1 <;> simp

@[simp] theorem report_timebase (q : Request) (s : State) : (s.report q).timebase = s.timebase := by
  simp [State.report]
@[simp] theorem report_straps (q : Request) (s : State) : (s.report q).straps = s.straps := by
  simp [State.report]
@[simp] theorem report_station (q : Request) (s : State) : (s.report q).station = s.station := by
  simp [State.report]
@[simp] theorem report_entries (q : Request) (s : State) : (s.report q).entries = s.entries := by
  simp [State.report]
@[simp] theorem report_defaults (q : Request) (s : State) : (s.report q).defaults = s.defaults := by
  simp [State.report]
@[simp] theorem report_deques (q : Request) (s : State) : (s.report q).deques = s.deques := by
  simp [State.report]
@[simp] theorem report_mem (q : Request) (s : State) : (s.report q).mem = s.mem := by
  simp [State.report]
@[simp] theorem report_ecc (q : Request) (s : State) : (s.report q).ecc = s.ecc := by
  simp [State.report]
@[simp] theorem report_freeCells (q : Request) (s : State) : (s.report q).freeCells = s.freeCells := by
  simp [State.report]
@[simp] theorem report_freeRecords (q : Request) (s : State) : (s.report q).freeRecords = s.freeRecords := by
  simp [State.report]
@[simp] theorem report_records (q : Request) (s : State) : (s.report q).records = s.records := by
  simp [State.report]
@[simp] theorem report_ports (q : Request) (s : State) : (s.report q).ports = s.ports := by
  simp [State.report]
@[simp] theorem report_engine (q : Request) (s : State) : (s.report q).engine = s.engine := by
  simp [State.report]
@[simp] theorem report_claim (q : Request) (s : State) : (s.report q).claim = s.claim := by
  simp [State.report]
@[simp] theorem report_check (q : Request) (s : State) : (s.report q).check = s.check := by
  simp [State.report]
@[simp] theorem report_freeDraws (q : Request) (s : State) : (s.report q).freeDraws = s.freeDraws := by
  simp [State.report]
@[simp] theorem report_pending (q : Request) (s : State) : (s.report q).pending = s.pending := by
  simp [State.report]

/-- All that `report` may change. -/
theorem report_shape (q : Request) (s : State) :
    s.report q = { s with exc := (s.report q).exc, follow := (s.report q).follow } := by
  ext1 <;> simp

/-- A request whose class is not in the mask is dropped and leaves no trace (R171). -/
theorem report_of_masked {q : Request} {s : State} (h : s.exc.mask.allows q.code.cls = false) : s.report q = s := by
  simp [State.report, State.request, h]

/-- A request that becomes a record: creation, the timer, and for every code but NOTICE_UNDELIVERED a delivery attempt
(R171, R175, R179). -/
theorem request_of_allowed {q : Request} {s : State} (h : s.exc.mask.allows q.code.cls = true) :
    s.request q = (some s.exc.counter,
      if q.code = .noticeUndelivered then State.syncTimer { s with exc := s.exc.create q s.timebase }
      else (State.syncTimer { s with exc := s.exc.create q s.timebase }).raise .noticeDeliveryAttempt) := by
  simp [State.request, h]

/-- The counter moves by one with each record created, and not otherwise (R173). -/
theorem request_counter (q : Request) (s : State) :
    (s.request q).2.exc.counter = if s.exc.mask.allows q.code.cls then s.exc.counter + 1 else s.exc.counter := by
  unfold State.request
  split
  · simp only
    split <;> rfl
  · rfl

@[simp] theorem detect_timebase (x : Location) (p : Port) (d : Option DequeNo) (m : Option Summary) (s : State) : ((s.detect x p d m).2).timebase = s.timebase := by
  simp only [State.detect]; split <;> simp
@[simp] theorem detect_straps (x : Location) (p : Port) (d : Option DequeNo) (m : Option Summary) (s : State) : ((s.detect x p d m).2).straps = s.straps := by
  simp only [State.detect]; split <;> simp
@[simp] theorem detect_station (x : Location) (p : Port) (d : Option DequeNo) (m : Option Summary) (s : State) : ((s.detect x p d m).2).station = s.station := by
  simp only [State.detect]; split <;> simp
@[simp] theorem detect_entries (x : Location) (p : Port) (d : Option DequeNo) (m : Option Summary) (s : State) : ((s.detect x p d m).2).entries = s.entries := by
  simp only [State.detect]; split <;> simp
@[simp] theorem detect_defaults (x : Location) (p : Port) (d : Option DequeNo) (m : Option Summary) (s : State) : ((s.detect x p d m).2).defaults = s.defaults := by
  simp only [State.detect]; split <;> simp
@[simp] theorem detect_deques (x : Location) (p : Port) (d : Option DequeNo) (m : Option Summary) (s : State) : ((s.detect x p d m).2).deques = s.deques := by
  simp only [State.detect]; split <;> simp
@[simp] theorem detect_mem (x : Location) (p : Port) (d : Option DequeNo) (m : Option Summary) (s : State) : ((s.detect x p d m).2).mem = s.mem := by
  simp only [State.detect]; split <;> simp
@[simp] theorem detect_ecc (x : Location) (p : Port) (d : Option DequeNo) (m : Option Summary) (s : State) : ((s.detect x p d m).2).ecc = s.ecc := by
  simp only [State.detect]; split <;> simp
@[simp] theorem detect_freeCells (x : Location) (p : Port) (d : Option DequeNo) (m : Option Summary) (s : State) : ((s.detect x p d m).2).freeCells = s.freeCells := by
  simp only [State.detect]; split <;> simp
@[simp] theorem detect_freeRecords (x : Location) (p : Port) (d : Option DequeNo) (m : Option Summary) (s : State) : ((s.detect x p d m).2).freeRecords = s.freeRecords := by
  simp only [State.detect]; split <;> simp
@[simp] theorem detect_records (x : Location) (p : Port) (d : Option DequeNo) (m : Option Summary) (s : State) : ((s.detect x p d m).2).records = s.records := by
  simp only [State.detect]; split <;> simp
@[simp] theorem detect_ports (x : Location) (p : Port) (d : Option DequeNo) (m : Option Summary) (s : State) : ((s.detect x p d m).2).ports = s.ports := by
  simp only [State.detect]; split <;> simp
@[simp] theorem detect_engine (x : Location) (p : Port) (d : Option DequeNo) (m : Option Summary) (s : State) : ((s.detect x p d m).2).engine = s.engine := by
  simp only [State.detect]; split <;> simp
@[simp] theorem detect_claim (x : Location) (p : Port) (d : Option DequeNo) (m : Option Summary) (s : State) : ((s.detect x p d m).2).claim = s.claim := by
  simp only [State.detect]; split <;> simp
@[simp] theorem detect_freeDraws (x : Location) (p : Port) (d : Option DequeNo) (m : Option Summary) (s : State) : ((s.detect x p d m).2).freeDraws = s.freeDraws := by
  simp only [State.detect]; split <;> simp
@[simp] theorem detect_pending (x : Location) (p : Port) (d : Option DequeNo) (m : Option Summary) (s : State) : ((s.detect x p d m).2).pending = s.pending := by
  simp only [State.detect]; split <;> simp

/-- All that `detect` may change. -/
theorem detect_shape (x : Location) (p : Port) (d : Option DequeNo) (m : Option Summary) (s : State) :
    (s.detect x p d m).2 = { s with exc := ((s.detect x p d m).2).exc, check := ((s.detect x p d m).2).check, follow := ((s.detect x p d m).2).follow } := by
  ext1 <;> simp

/-- The check record after a detection, whatever the level admits (R187). -/
theorem detect_check_eq (x : Location) (p : Port) (d : Option DequeNo) (m : Option Summary) (s : State) :
    (s.detect x p d m).2.check = s.check.note x := by
  simp only [State.detect]; split <;> simp

@[simp] theorem release_timebase (r : RecordNo) (s : State) : (s.release r).timebase = s.timebase := by
  unfold State.release; (repeat' split) <;> simp
@[simp] theorem release_straps (r : RecordNo) (s : State) : (s.release r).straps = s.straps := by
  unfold State.release; (repeat' split) <;> simp
@[simp] theorem release_station (r : RecordNo) (s : State) : (s.release r).station = s.station := by
  unfold State.release; (repeat' split) <;> simp
@[simp] theorem release_entries (r : RecordNo) (s : State) : (s.release r).entries = s.entries := by
  unfold State.release; (repeat' split) <;> simp
@[simp] theorem release_defaults (r : RecordNo) (s : State) : (s.release r).defaults = s.defaults := by
  unfold State.release; (repeat' split) <;> simp
@[simp] theorem release_deques (r : RecordNo) (s : State) : (s.release r).deques = s.deques := by
  unfold State.release; (repeat' split) <;> simp
@[simp] theorem release_mem (r : RecordNo) (s : State) : (s.release r).mem = s.mem := by
  unfold State.release; (repeat' split) <;> simp
@[simp] theorem release_ecc (r : RecordNo) (s : State) : (s.release r).ecc = s.ecc := by
  unfold State.release; (repeat' split) <;> simp
@[simp] theorem release_ports (r : RecordNo) (s : State) : (s.release r).ports = s.ports := by
  unfold State.release; (repeat' split) <;> simp
@[simp] theorem release_engine (r : RecordNo) (s : State) : (s.release r).engine = s.engine := by
  unfold State.release; (repeat' split) <;> simp
@[simp] theorem release_claim (r : RecordNo) (s : State) : (s.release r).claim = s.claim := by
  unfold State.release; (repeat' split) <;> simp
@[simp] theorem release_exc (r : RecordNo) (s : State) : (s.release r).exc = s.exc := by
  unfold State.release; (repeat' split) <;> simp
@[simp] theorem release_check (r : RecordNo) (s : State) : (s.release r).check = s.check := by
  unfold State.release; (repeat' split) <;> simp
@[simp] theorem release_follow (r : RecordNo) (s : State) : (s.release r).follow = s.follow := by
  unfold State.release; (repeat' split) <;> simp
@[simp] theorem release_freeDraws (r : RecordNo) (s : State) : (s.release r).freeDraws = s.freeDraws := by
  unfold State.release; (repeat' split) <;> simp
@[simp] theorem release_pending (r : RecordNo) (s : State) : (s.release r).pending = s.pending := by
  unfold State.release; (repeat' split) <;> simp

/-- All that `release` may change. -/
theorem release_shape (r : RecordNo) (s : State) :
    s.release r = { s with freeCells := (s.release r).freeCells, freeRecords := (s.release r).freeRecords, records := (s.release r).records } := by
  ext1 <;> simp

/-- A release that leaves other holders (R63). -/
theorem release_of_shared {r : RecordNo} {h : HeldFrame} {s : State} (hr : s.record r = .held h) (hc : 1 < h.count) :
    s.release r = s.setRecord r (.held { h with count := h.count - 1 }) := by
  simp [State.release, hr, Nat.not_le.mpr hc]

/-- The last release frees the frame (R63). -/
theorem release_of_last {r : RecordNo} {h : HeldFrame} {s : State} (hr : s.record r = .held h) (hc : h.count ≤ 1) :
    s.release r = s.freeFrame r h.cells := by
  simp [State.release, hr, hc]

/-- A release touches no other record. -/
theorem release_record_of_ne {r q : RecordNo} {s : State} (h : q ≠ r) : (s.release r).record q = s.record q := by
  unfold State.release
  split
  · split
    · exact setRecord_record_of_ne _ _ h
    · exact setRecord_record_of_ne _ _ h
  · rfl

@[simp] theorem addRef_timebase (r : RecordNo) (s : State) : (s.addRef r).timebase = s.timebase := by
  unfold State.addRef; (repeat' split) <;> simp
@[simp] theorem addRef_straps (r : RecordNo) (s : State) : (s.addRef r).straps = s.straps := by
  unfold State.addRef; (repeat' split) <;> simp
@[simp] theorem addRef_station (r : RecordNo) (s : State) : (s.addRef r).station = s.station := by
  unfold State.addRef; (repeat' split) <;> simp
@[simp] theorem addRef_entries (r : RecordNo) (s : State) : (s.addRef r).entries = s.entries := by
  unfold State.addRef; (repeat' split) <;> simp
@[simp] theorem addRef_defaults (r : RecordNo) (s : State) : (s.addRef r).defaults = s.defaults := by
  unfold State.addRef; (repeat' split) <;> simp
@[simp] theorem addRef_deques (r : RecordNo) (s : State) : (s.addRef r).deques = s.deques := by
  unfold State.addRef; (repeat' split) <;> simp
@[simp] theorem addRef_mem (r : RecordNo) (s : State) : (s.addRef r).mem = s.mem := by
  unfold State.addRef; (repeat' split) <;> simp
@[simp] theorem addRef_ecc (r : RecordNo) (s : State) : (s.addRef r).ecc = s.ecc := by
  unfold State.addRef; (repeat' split) <;> simp
@[simp] theorem addRef_freeCells (r : RecordNo) (s : State) : (s.addRef r).freeCells = s.freeCells := by
  unfold State.addRef; (repeat' split) <;> simp
@[simp] theorem addRef_freeRecords (r : RecordNo) (s : State) : (s.addRef r).freeRecords = s.freeRecords := by
  unfold State.addRef; (repeat' split) <;> simp
@[simp] theorem addRef_ports (r : RecordNo) (s : State) : (s.addRef r).ports = s.ports := by
  unfold State.addRef; (repeat' split) <;> simp
@[simp] theorem addRef_engine (r : RecordNo) (s : State) : (s.addRef r).engine = s.engine := by
  unfold State.addRef; (repeat' split) <;> simp
@[simp] theorem addRef_claim (r : RecordNo) (s : State) : (s.addRef r).claim = s.claim := by
  unfold State.addRef; (repeat' split) <;> simp
@[simp] theorem addRef_exc (r : RecordNo) (s : State) : (s.addRef r).exc = s.exc := by
  unfold State.addRef; (repeat' split) <;> simp
@[simp] theorem addRef_check (r : RecordNo) (s : State) : (s.addRef r).check = s.check := by
  unfold State.addRef; (repeat' split) <;> simp
@[simp] theorem addRef_follow (r : RecordNo) (s : State) : (s.addRef r).follow = s.follow := by
  unfold State.addRef; (repeat' split) <;> simp
@[simp] theorem addRef_freeDraws (r : RecordNo) (s : State) : (s.addRef r).freeDraws = s.freeDraws := by
  unfold State.addRef; (repeat' split) <;> simp
@[simp] theorem addRef_pending (r : RecordNo) (s : State) : (s.addRef r).pending = s.pending := by
  unfold State.addRef; (repeat' split) <;> simp

/-- All that `addRef` may change. -/
theorem addRef_shape (r : RecordNo) (s : State) :
    s.addRef r = { s with records := (s.addRef r).records } := by
  ext1 <;> simp

/-- An added reference raises the count of a HELD record by 1 (R62). -/
theorem addRef_of_held {r : RecordNo} {h : HeldFrame} {s : State} (hr : s.record r = .held h) :
    s.addRef r = s.setRecord r (.held { h with count := h.count + 1 }) := by
  simp [State.addRef, hr]

theorem addRef_record_of_ne {r q : RecordNo} {s : State} (h : q ≠ r) : (s.addRef r).record q = s.record q := by
  unfold State.addRef
  split
  · exact setRecord_record_of_ne _ _ h
  · rfl

@[simp] theorem offer_timebase (d : DequeNo) (s : State) : (s.offer d).timebase = s.timebase := by
  unfold State.offer; (repeat' split) <;> simp
@[simp] theorem offer_straps (d : DequeNo) (s : State) : (s.offer d).straps = s.straps := by
  unfold State.offer; (repeat' split) <;> simp
@[simp] theorem offer_station (d : DequeNo) (s : State) : (s.offer d).station = s.station := by
  unfold State.offer; (repeat' split) <;> simp
@[simp] theorem offer_entries (d : DequeNo) (s : State) : (s.offer d).entries = s.entries := by
  unfold State.offer; (repeat' split) <;> simp
@[simp] theorem offer_defaults (d : DequeNo) (s : State) : (s.offer d).defaults = s.defaults := by
  unfold State.offer; (repeat' split) <;> simp
@[simp] theorem offer_deques (d : DequeNo) (s : State) : (s.offer d).deques = s.deques := by
  unfold State.offer; (repeat' split) <;> simp
@[simp] theorem offer_mem (d : DequeNo) (s : State) : (s.offer d).mem = s.mem := by
  unfold State.offer; (repeat' split) <;> simp
@[simp] theorem offer_ecc (d : DequeNo) (s : State) : (s.offer d).ecc = s.ecc := by
  unfold State.offer; (repeat' split) <;> simp
@[simp] theorem offer_freeCells (d : DequeNo) (s : State) : (s.offer d).freeCells = s.freeCells := by
  unfold State.offer; (repeat' split) <;> simp
@[simp] theorem offer_freeRecords (d : DequeNo) (s : State) : (s.offer d).freeRecords = s.freeRecords := by
  unfold State.offer; (repeat' split) <;> simp
@[simp] theorem offer_records (d : DequeNo) (s : State) : (s.offer d).records = s.records := by
  unfold State.offer; (repeat' split) <;> simp
@[simp] theorem offer_ports (d : DequeNo) (s : State) : (s.offer d).ports = s.ports := by
  unfold State.offer; (repeat' split) <;> simp
@[simp] theorem offer_engine (d : DequeNo) (s : State) : (s.offer d).engine = s.engine := by
  unfold State.offer; (repeat' split) <;> simp
@[simp] theorem offer_claim (d : DequeNo) (s : State) : (s.offer d).claim = s.claim := by
  unfold State.offer; (repeat' split) <;> simp
@[simp] theorem offer_exc (d : DequeNo) (s : State) : (s.offer d).exc = s.exc := by
  unfold State.offer; (repeat' split) <;> simp
@[simp] theorem offer_check (d : DequeNo) (s : State) : (s.offer d).check = s.check := by
  unfold State.offer; (repeat' split) <;> simp
@[simp] theorem offer_freeDraws (d : DequeNo) (s : State) : (s.offer d).freeDraws = s.freeDraws := by
  unfold State.offer; (repeat' split) <;> simp
@[simp] theorem offer_pending (d : DequeNo) (s : State) : (s.offer d).pending = s.pending := by
  unfold State.offer; (repeat' split) <;> simp

/-- All that `offer` may change. -/
theorem offer_shape (d : DequeNo) (s : State) :
    s.offer d = { s with follow := (s.offer d).follow } := by
  ext1 <;> simp

@[simp] theorem shedInto_timebase (d : DequeNo) (r : RecordNo) (e : Insertion) (v : RecordNo) (rest : List RecordNo) (s : State) : (s.shedInto d r e v rest).timebase = s.timebase := by
  simp [State.shedInto]
@[simp] theorem shedInto_straps (d : DequeNo) (r : RecordNo) (e : Insertion) (v : RecordNo) (rest : List RecordNo) (s : State) : (s.shedInto d r e v rest).straps = s.straps := by
  simp [State.shedInto]
@[simp] theorem shedInto_station (d : DequeNo) (r : RecordNo) (e : Insertion) (v : RecordNo) (rest : List RecordNo) (s : State) : (s.shedInto d r e v rest).station = s.station := by
  simp [State.shedInto]
@[simp] theorem shedInto_entries (d : DequeNo) (r : RecordNo) (e : Insertion) (v : RecordNo) (rest : List RecordNo) (s : State) : (s.shedInto d r e v rest).entries = s.entries := by
  simp [State.shedInto]
@[simp] theorem shedInto_defaults (d : DequeNo) (r : RecordNo) (e : Insertion) (v : RecordNo) (rest : List RecordNo) (s : State) : (s.shedInto d r e v rest).defaults = s.defaults := by
  simp [State.shedInto]
@[simp] theorem shedInto_mem (d : DequeNo) (r : RecordNo) (e : Insertion) (v : RecordNo) (rest : List RecordNo) (s : State) : (s.shedInto d r e v rest).mem = s.mem := by
  simp [State.shedInto]
@[simp] theorem shedInto_ecc (d : DequeNo) (r : RecordNo) (e : Insertion) (v : RecordNo) (rest : List RecordNo) (s : State) : (s.shedInto d r e v rest).ecc = s.ecc := by
  simp [State.shedInto]
@[simp] theorem shedInto_ports (d : DequeNo) (r : RecordNo) (e : Insertion) (v : RecordNo) (rest : List RecordNo) (s : State) : (s.shedInto d r e v rest).ports = s.ports := by
  simp [State.shedInto]
@[simp] theorem shedInto_engine (d : DequeNo) (r : RecordNo) (e : Insertion) (v : RecordNo) (rest : List RecordNo) (s : State) : (s.shedInto d r e v rest).engine = s.engine := by
  simp [State.shedInto]
@[simp] theorem shedInto_claim (d : DequeNo) (r : RecordNo) (e : Insertion) (v : RecordNo) (rest : List RecordNo) (s : State) : (s.shedInto d r e v rest).claim = s.claim := by
  simp [State.shedInto]
@[simp] theorem shedInto_check (d : DequeNo) (r : RecordNo) (e : Insertion) (v : RecordNo) (rest : List RecordNo) (s : State) : (s.shedInto d r e v rest).check = s.check := by
  simp [State.shedInto]
@[simp] theorem shedInto_freeDraws (d : DequeNo) (r : RecordNo) (e : Insertion) (v : RecordNo) (rest : List RecordNo) (s : State) : (s.shedInto d r e v rest).freeDraws = s.freeDraws := by
  simp [State.shedInto]
@[simp] theorem shedInto_pending (d : DequeNo) (r : RecordNo) (e : Insertion) (v : RecordNo) (rest : List RecordNo) (s : State) : (s.shedInto d r e v rest).pending = s.pending := by
  simp [State.shedInto]

@[simp] theorem arrive_timebase (d : DequeNo) (r : RecordNo) (e : Insertion) (s : State) : ((s.arrive d r e).2).timebase = s.timebase := by
  simp only [State.arrive]; (repeat' split) <;> simp
@[simp] theorem arrive_straps (d : DequeNo) (r : RecordNo) (e : Insertion) (s : State) : ((s.arrive d r e).2).straps = s.straps := by
  simp only [State.arrive]; (repeat' split) <;> simp
@[simp] theorem arrive_station (d : DequeNo) (r : RecordNo) (e : Insertion) (s : State) : ((s.arrive d r e).2).station = s.station := by
  simp only [State.arrive]; (repeat' split) <;> simp
@[simp] theorem arrive_entries (d : DequeNo) (r : RecordNo) (e : Insertion) (s : State) : ((s.arrive d r e).2).entries = s.entries := by
  simp only [State.arrive]; (repeat' split) <;> simp
@[simp] theorem arrive_defaults (d : DequeNo) (r : RecordNo) (e : Insertion) (s : State) : ((s.arrive d r e).2).defaults = s.defaults := by
  simp only [State.arrive]; (repeat' split) <;> simp
@[simp] theorem arrive_mem (d : DequeNo) (r : RecordNo) (e : Insertion) (s : State) : ((s.arrive d r e).2).mem = s.mem := by
  simp only [State.arrive]; (repeat' split) <;> simp
@[simp] theorem arrive_ecc (d : DequeNo) (r : RecordNo) (e : Insertion) (s : State) : ((s.arrive d r e).2).ecc = s.ecc := by
  simp only [State.arrive]; (repeat' split) <;> simp
@[simp] theorem arrive_ports (d : DequeNo) (r : RecordNo) (e : Insertion) (s : State) : ((s.arrive d r e).2).ports = s.ports := by
  simp only [State.arrive]; (repeat' split) <;> simp
@[simp] theorem arrive_engine (d : DequeNo) (r : RecordNo) (e : Insertion) (s : State) : ((s.arrive d r e).2).engine = s.engine := by
  simp only [State.arrive]; (repeat' split) <;> simp
@[simp] theorem arrive_claim (d : DequeNo) (r : RecordNo) (e : Insertion) (s : State) : ((s.arrive d r e).2).claim = s.claim := by
  simp only [State.arrive]; (repeat' split) <;> simp
@[simp] theorem arrive_check (d : DequeNo) (r : RecordNo) (e : Insertion) (s : State) : ((s.arrive d r e).2).check = s.check := by
  simp only [State.arrive]; (repeat' split) <;> simp
@[simp] theorem arrive_freeDraws (d : DequeNo) (r : RecordNo) (e : Insertion) (s : State) : ((s.arrive d r e).2).freeDraws = s.freeDraws := by
  simp only [State.arrive]; (repeat' split) <;> simp
@[simp] theorem arrive_pending (d : DequeNo) (r : RecordNo) (e : Insertion) (s : State) : ((s.arrive d r e).2).pending = s.pending := by
  simp only [State.arrive]; (repeat' split) <;> simp

/-- All that `arrive` may change. -/
theorem arrive_shape (d : DequeNo) (r : RecordNo) (e : Insertion) (s : State) :
    (s.arrive d r e).2 = { s with deques := ((s.arrive d r e).2).deques, freeCells := ((s.arrive d r e).2).freeCells, freeRecords := ((s.arrive d r e).2).freeRecords, records := ((s.arrive d r e).2).records, exc := ((s.arrive d r e).2).exc, follow := ((s.arrive d r e).2).follow } := by
  ext1 <;> simp

/-- A DETACHED or DRAINING deque refuses with DEQUE_CLOSED (R32 step 1). -/
theorem arrive_of_closed {d : DequeNo} {r : RecordNo} {e : Insertion} {s : State}
    (h : (s.deque d).state = .detached ∨ ∃ t n, (s.deque d).state = .draining t n) :
    s.arrive d r e = (.dequeClosed, s) := by
  rcases h with h | ⟨t, n, h⟩ <;> simp [State.arrive, h]

/-- A record the deque already holds changes nothing (R32 step 2, R35). -/
theorem arrive_of_present {d : DequeNo} {r : RecordNo} {e : Insertion} {s : State}
    (h : (s.deque d).state = .active ∨ (s.deque d).state = .paused) (hr : r ∈ (s.deque d).entries) :
    s.arrive d r e = (.alreadyPresent, s) := by
  rcases h with h | h <;> simp [State.arrive, h, hr]

/-- Below the limit the record is added at the named end with a reference (R32 step 3). -/
theorem arrive_of_room {d : DequeNo} {r : RecordNo} {e : Insertion} {s : State}
    (h : (s.deque d).state = .active ∨ (s.deque d).state = .paused) (hr : r ∉ (s.deque d).entries)
    (hl : (s.deque d).entries.length < (s.deque d).config.limit.toNat) :
    s.arrive d r e = (.accepted,
      let t := (s.setDeque d { s.deque d with entries := place e r (s.deque d).entries }).addRef r
      if (s.deque d).entries = [] then t.offer d else t) := by
  rcases h with h | h <;> simp [State.arrive, h, hr, hl]

/-- A full deque that refuses (R32 step 4, R33). -/
theorem arrive_of_full_refuse {d : DequeNo} {r : RecordNo} {e : Insertion} {s : State}
    (h : (s.deque d).state = .active ∨ (s.deque d).state = .paused) (hr : r ∉ (s.deque d).entries)
    (hl : (s.deque d).config.limit.toNat ≤ (s.deque d).entries.length) (hp : (s.deque d).config.policy = .refuse) :
    s.arrive d r e = (.dequeFull, s) := by
  rcases h with h | h <;> simp [State.arrive, h, hr, Nat.not_lt.mpr hl, shedEntry, hp]

/-- A full deque that sheds (R32 step 4, R34). -/
theorem arrive_of_full_shed {d : DequeNo} {r v : RecordNo} {e : Insertion} {rest : List RecordNo} {s : State}
    (h : (s.deque d).state = .active ∨ (s.deque d).state = .paused) (hr : r ∉ (s.deque d).entries)
    (hl : (s.deque d).config.limit.toNat ≤ (s.deque d).entries.length)
    (hp : shedEntry (s.deque d).config.policy (s.deque d).entries = some (v, rest)) :
    s.arrive d r e = (.accepted, s.shedInto d r e v rest) := by
  rcases h with h | h <;> simp [State.arrive, h, hr, Nat.not_lt.mpr hl, hp]

@[simp] theorem strikeOne_timebase (u : Upset) (s : State) : (s.strikeOne u).timebase = s.timebase := by
  unfold State.strikeOne; (repeat' split) <;> simp
@[simp] theorem strikeOne_straps (u : Upset) (s : State) : (s.strikeOne u).straps = s.straps := by
  unfold State.strikeOne; (repeat' split) <;> simp
@[simp] theorem strikeOne_station (u : Upset) (s : State) : (s.strikeOne u).station = s.station := by
  unfold State.strikeOne; (repeat' split) <;> simp
@[simp] theorem strikeOne_defaults (u : Upset) (s : State) : (s.strikeOne u).defaults = s.defaults := by
  unfold State.strikeOne; (repeat' split) <;> simp
@[simp] theorem strikeOne_deques (u : Upset) (s : State) : (s.strikeOne u).deques = s.deques := by
  unfold State.strikeOne; (repeat' split) <;> simp
@[simp] theorem strikeOne_mem (u : Upset) (s : State) : (s.strikeOne u).mem = s.mem := by
  unfold State.strikeOne; (repeat' split) <;> simp
@[simp] theorem strikeOne_freeCells (u : Upset) (s : State) : (s.strikeOne u).freeCells = s.freeCells := by
  unfold State.strikeOne; (repeat' split) <;> simp
@[simp] theorem strikeOne_freeRecords (u : Upset) (s : State) : (s.strikeOne u).freeRecords = s.freeRecords := by
  unfold State.strikeOne; (repeat' split) <;> simp
@[simp] theorem strikeOne_records (u : Upset) (s : State) : (s.strikeOne u).records = s.records := by
  unfold State.strikeOne; (repeat' split) <;> simp
@[simp] theorem strikeOne_ports (u : Upset) (s : State) : (s.strikeOne u).ports = s.ports := by
  unfold State.strikeOne; (repeat' split) <;> simp
@[simp] theorem strikeOne_engine (u : Upset) (s : State) : (s.strikeOne u).engine = s.engine := by
  unfold State.strikeOne; (repeat' split) <;> simp
@[simp] theorem strikeOne_claim (u : Upset) (s : State) : (s.strikeOne u).claim = s.claim := by
  unfold State.strikeOne; (repeat' split) <;> simp
@[simp] theorem strikeOne_exc (u : Upset) (s : State) : (s.strikeOne u).exc = s.exc := by
  unfold State.strikeOne; (repeat' split) <;> simp
@[simp] theorem strikeOne_check (u : Upset) (s : State) : (s.strikeOne u).check = s.check := by
  unfold State.strikeOne; (repeat' split) <;> simp
@[simp] theorem strikeOne_follow (u : Upset) (s : State) : (s.strikeOne u).follow = s.follow := by
  unfold State.strikeOne; (repeat' split) <;> simp
@[simp] theorem strikeOne_freeDraws (u : Upset) (s : State) : (s.strikeOne u).freeDraws = s.freeDraws := by
  unfold State.strikeOne; (repeat' split) <;> simp
@[simp] theorem strikeOne_pending (u : Upset) (s : State) : (s.strikeOne u).pending = s.pending := by
  unfold State.strikeOne; (repeat' split) <;> simp

@[simp] theorem strike_timebase (us : List Upset) (s : State) : (s.strike us).timebase = s.timebase := by
  induction us generalizing s with
  | nil => rfl
  | cons u us ih => exact (ih _).trans (strikeOne_timebase u s)
@[simp] theorem strike_straps (us : List Upset) (s : State) : (s.strike us).straps = s.straps := by
  induction us generalizing s with
  | nil => rfl
  | cons u us ih => exact (ih _).trans (strikeOne_straps u s)
@[simp] theorem strike_station (us : List Upset) (s : State) : (s.strike us).station = s.station := by
  induction us generalizing s with
  | nil => rfl
  | cons u us ih => exact (ih _).trans (strikeOne_station u s)
@[simp] theorem strike_defaults (us : List Upset) (s : State) : (s.strike us).defaults = s.defaults := by
  induction us generalizing s with
  | nil => rfl
  | cons u us ih => exact (ih _).trans (strikeOne_defaults u s)
@[simp] theorem strike_deques (us : List Upset) (s : State) : (s.strike us).deques = s.deques := by
  induction us generalizing s with
  | nil => rfl
  | cons u us ih => exact (ih _).trans (strikeOne_deques u s)
@[simp] theorem strike_mem (us : List Upset) (s : State) : (s.strike us).mem = s.mem := by
  induction us generalizing s with
  | nil => rfl
  | cons u us ih => exact (ih _).trans (strikeOne_mem u s)
@[simp] theorem strike_freeCells (us : List Upset) (s : State) : (s.strike us).freeCells = s.freeCells := by
  induction us generalizing s with
  | nil => rfl
  | cons u us ih => exact (ih _).trans (strikeOne_freeCells u s)
@[simp] theorem strike_freeRecords (us : List Upset) (s : State) : (s.strike us).freeRecords = s.freeRecords := by
  induction us generalizing s with
  | nil => rfl
  | cons u us ih => exact (ih _).trans (strikeOne_freeRecords u s)
@[simp] theorem strike_records (us : List Upset) (s : State) : (s.strike us).records = s.records := by
  induction us generalizing s with
  | nil => rfl
  | cons u us ih => exact (ih _).trans (strikeOne_records u s)
@[simp] theorem strike_ports (us : List Upset) (s : State) : (s.strike us).ports = s.ports := by
  induction us generalizing s with
  | nil => rfl
  | cons u us ih => exact (ih _).trans (strikeOne_ports u s)
@[simp] theorem strike_engine (us : List Upset) (s : State) : (s.strike us).engine = s.engine := by
  induction us generalizing s with
  | nil => rfl
  | cons u us ih => exact (ih _).trans (strikeOne_engine u s)
@[simp] theorem strike_claim (us : List Upset) (s : State) : (s.strike us).claim = s.claim := by
  induction us generalizing s with
  | nil => rfl
  | cons u us ih => exact (ih _).trans (strikeOne_claim u s)
@[simp] theorem strike_exc (us : List Upset) (s : State) : (s.strike us).exc = s.exc := by
  induction us generalizing s with
  | nil => rfl
  | cons u us ih => exact (ih _).trans (strikeOne_exc u s)
@[simp] theorem strike_check (us : List Upset) (s : State) : (s.strike us).check = s.check := by
  induction us generalizing s with
  | nil => rfl
  | cons u us ih => exact (ih _).trans (strikeOne_check u s)
@[simp] theorem strike_follow (us : List Upset) (s : State) : (s.strike us).follow = s.follow := by
  induction us generalizing s with
  | nil => rfl
  | cons u us ih => exact (ih _).trans (strikeOne_follow u s)
@[simp] theorem strike_freeDraws (us : List Upset) (s : State) : (s.strike us).freeDraws = s.freeDraws := by
  induction us generalizing s with
  | nil => rfl
  | cons u us ih => exact (ih _).trans (strikeOne_freeDraws u s)
@[simp] theorem strike_pending (us : List Upset) (s : State) : (s.strike us).pending = s.pending := by
  induction us generalizing s with
  | nil => rfl
  | cons u us ih => exact (ih _).trans (strikeOne_pending u s)

@[simp] theorem markSuspect_timebase (i : EntryNo) (x : Stored) (p : Port) (m : Option Summary) (s : State) : (s.markSuspect i x p m).timebase = s.timebase := by
  simp [State.markSuspect]
@[simp] theorem markSuspect_straps (i : EntryNo) (x : Stored) (p : Port) (m : Option Summary) (s : State) : (s.markSuspect i x p m).straps = s.straps := by
  simp [State.markSuspect]
@[simp] theorem markSuspect_station (i : EntryNo) (x : Stored) (p : Port) (m : Option Summary) (s : State) : (s.markSuspect i x p m).station = s.station := by
  simp [State.markSuspect]
@[simp] theorem markSuspect_defaults (i : EntryNo) (x : Stored) (p : Port) (m : Option Summary) (s : State) : (s.markSuspect i x p m).defaults = s.defaults := by
  simp [State.markSuspect]
@[simp] theorem markSuspect_deques (i : EntryNo) (x : Stored) (p : Port) (m : Option Summary) (s : State) : (s.markSuspect i x p m).deques = s.deques := by
  simp [State.markSuspect]
@[simp] theorem markSuspect_mem (i : EntryNo) (x : Stored) (p : Port) (m : Option Summary) (s : State) : (s.markSuspect i x p m).mem = s.mem := by
  simp [State.markSuspect]
@[simp] theorem markSuspect_ecc (i : EntryNo) (x : Stored) (p : Port) (m : Option Summary) (s : State) : (s.markSuspect i x p m).ecc = s.ecc := by
  simp [State.markSuspect]
@[simp] theorem markSuspect_freeCells (i : EntryNo) (x : Stored) (p : Port) (m : Option Summary) (s : State) : (s.markSuspect i x p m).freeCells = s.freeCells := by
  simp [State.markSuspect]
@[simp] theorem markSuspect_freeRecords (i : EntryNo) (x : Stored) (p : Port) (m : Option Summary) (s : State) : (s.markSuspect i x p m).freeRecords = s.freeRecords := by
  simp [State.markSuspect]
@[simp] theorem markSuspect_records (i : EntryNo) (x : Stored) (p : Port) (m : Option Summary) (s : State) : (s.markSuspect i x p m).records = s.records := by
  simp [State.markSuspect]
@[simp] theorem markSuspect_ports (i : EntryNo) (x : Stored) (p : Port) (m : Option Summary) (s : State) : (s.markSuspect i x p m).ports = s.ports := by
  simp [State.markSuspect]
@[simp] theorem markSuspect_engine (i : EntryNo) (x : Stored) (p : Port) (m : Option Summary) (s : State) : (s.markSuspect i x p m).engine = s.engine := by
  simp [State.markSuspect]
@[simp] theorem markSuspect_claim (i : EntryNo) (x : Stored) (p : Port) (m : Option Summary) (s : State) : (s.markSuspect i x p m).claim = s.claim := by
  simp [State.markSuspect]
@[simp] theorem markSuspect_freeDraws (i : EntryNo) (x : Stored) (p : Port) (m : Option Summary) (s : State) : (s.markSuspect i x p m).freeDraws = s.freeDraws := by
  simp [State.markSuspect]
@[simp] theorem markSuspect_pending (i : EntryNo) (x : Stored) (p : Port) (m : Option Summary) (s : State) : (s.markSuspect i x p m).pending = s.pending := by
  simp [State.markSuspect]

@[simp] theorem lookup_timebase (d : Address) (c : BitVec 3) (p q : Port) (m : Option Summary) (s : State) : ((s.lookup d c p q m).2).timebase = s.timebase := by
  unfold State.lookup; (repeat' split) <;> simp
@[simp] theorem lookup_straps (d : Address) (c : BitVec 3) (p q : Port) (m : Option Summary) (s : State) : ((s.lookup d c p q m).2).straps = s.straps := by
  unfold State.lookup; (repeat' split) <;> simp
@[simp] theorem lookup_station (d : Address) (c : BitVec 3) (p q : Port) (m : Option Summary) (s : State) : ((s.lookup d c p q m).2).station = s.station := by
  unfold State.lookup; (repeat' split) <;> simp
@[simp] theorem lookup_defaults (d : Address) (c : BitVec 3) (p q : Port) (m : Option Summary) (s : State) : ((s.lookup d c p q m).2).defaults = s.defaults := by
  unfold State.lookup; (repeat' split) <;> simp
@[simp] theorem lookup_deques (d : Address) (c : BitVec 3) (p q : Port) (m : Option Summary) (s : State) : ((s.lookup d c p q m).2).deques = s.deques := by
  unfold State.lookup; (repeat' split) <;> simp
@[simp] theorem lookup_mem (d : Address) (c : BitVec 3) (p q : Port) (m : Option Summary) (s : State) : ((s.lookup d c p q m).2).mem = s.mem := by
  unfold State.lookup; (repeat' split) <;> simp
@[simp] theorem lookup_ecc (d : Address) (c : BitVec 3) (p q : Port) (m : Option Summary) (s : State) : ((s.lookup d c p q m).2).ecc = s.ecc := by
  unfold State.lookup; (repeat' split) <;> simp
@[simp] theorem lookup_freeCells (d : Address) (c : BitVec 3) (p q : Port) (m : Option Summary) (s : State) : ((s.lookup d c p q m).2).freeCells = s.freeCells := by
  unfold State.lookup; (repeat' split) <;> simp
@[simp] theorem lookup_freeRecords (d : Address) (c : BitVec 3) (p q : Port) (m : Option Summary) (s : State) : ((s.lookup d c p q m).2).freeRecords = s.freeRecords := by
  unfold State.lookup; (repeat' split) <;> simp
@[simp] theorem lookup_records (d : Address) (c : BitVec 3) (p q : Port) (m : Option Summary) (s : State) : ((s.lookup d c p q m).2).records = s.records := by
  unfold State.lookup; (repeat' split) <;> simp
@[simp] theorem lookup_ports (d : Address) (c : BitVec 3) (p q : Port) (m : Option Summary) (s : State) : ((s.lookup d c p q m).2).ports = s.ports := by
  unfold State.lookup; (repeat' split) <;> simp
@[simp] theorem lookup_engine (d : Address) (c : BitVec 3) (p q : Port) (m : Option Summary) (s : State) : ((s.lookup d c p q m).2).engine = s.engine := by
  unfold State.lookup; (repeat' split) <;> simp
@[simp] theorem lookup_claim (d : Address) (c : BitVec 3) (p q : Port) (m : Option Summary) (s : State) : ((s.lookup d c p q m).2).claim = s.claim := by
  unfold State.lookup; (repeat' split) <;> simp
@[simp] theorem lookup_freeDraws (d : Address) (c : BitVec 3) (p q : Port) (m : Option Summary) (s : State) : ((s.lookup d c p q m).2).freeDraws = s.freeDraws := by
  unfold State.lookup; (repeat' split) <;> simp
@[simp] theorem lookup_pending (d : Address) (c : BitVec 3) (p q : Port) (m : Option Summary) (s : State) : ((s.lookup d c p q m).2).pending = s.pending := by
  unfold State.lookup; (repeat' split) <;> simp

/-- All that `lookup` may change. -/
theorem lookup_shape (d : Address) (c : BitVec 3) (p q : Port) (m : Option Summary) (s : State) :
    (s.lookup d c p q m).2 = { s with entries := ((s.lookup d c p q m).2).entries, exc := ((s.lookup d c p q m).2).exc, check := ((s.lookup d c p q m).2).check, follow := ((s.lookup d c p q m).2).follow } := by
  ext1 <;> simp

end Sys2Proof.Machine
end

