-- ==== Sys2Proof/Laws/Events.lean ====
section
/-! SUPPORT. What the operations of the schedulers, the links, admission, the engine and the notices can change: one
`shape` lemma each, and the engine's dealing with an order. -/

namespace Sys2Proof.Machine

open Sys2Proof

/-! ## Schedulers -/

@[simp] theorem moveMarker_timebase (p : Port) (c : Choice) (s : State) : (s.moveMarker p c).timebase = s.timebase := by
  unfold State.moveMarker; (repeat' split) <;> simp
@[simp] theorem moveMarker_straps (p : Port) (c : Choice) (s : State) : (s.moveMarker p c).straps = s.straps := by
  unfold State.moveMarker; (repeat' split) <;> simp
@[simp] theorem moveMarker_station (p : Port) (c : Choice) (s : State) : (s.moveMarker p c).station = s.station := by
  unfold State.moveMarker; (repeat' split) <;> simp
@[simp] theorem moveMarker_entries (p : Port) (c : Choice) (s : State) : (s.moveMarker p c).entries = s.entries := by
  unfold State.moveMarker; (repeat' split) <;> simp
@[simp] theorem moveMarker_defaults (p : Port) (c : Choice) (s : State) : (s.moveMarker p c).defaults = s.defaults := by
  unfold State.moveMarker; (repeat' split) <;> simp
@[simp] theorem moveMarker_deques (p : Port) (c : Choice) (s : State) : (s.moveMarker p c).deques = s.deques := by
  unfold State.moveMarker; (repeat' split) <;> simp
@[simp] theorem moveMarker_mem (p : Port) (c : Choice) (s : State) : (s.moveMarker p c).mem = s.mem := by
  unfold State.moveMarker; (repeat' split) <;> simp
@[simp] theorem moveMarker_ecc (p : Port) (c : Choice) (s : State) : (s.moveMarker p c).ecc = s.ecc := by
  unfold State.moveMarker; (repeat' split) <;> simp
@[simp] theorem moveMarker_freeCells (p : Port) (c : Choice) (s : State) : (s.moveMarker p c).freeCells = s.freeCells := by
  unfold State.moveMarker; (repeat' split) <;> simp
@[simp] theorem moveMarker_freeRecords (p : Port) (c : Choice) (s : State) : (s.moveMarker p c).freeRecords = s.freeRecords := by
  unfold State.moveMarker; (repeat' split) <;> simp
@[simp] theorem moveMarker_records (p : Port) (c : Choice) (s : State) : (s.moveMarker p c).records = s.records := by
  unfold State.moveMarker; (repeat' split) <;> simp
@[simp] theorem moveMarker_engine (p : Port) (c : Choice) (s : State) : (s.moveMarker p c).engine = s.engine := by
  unfold State.moveMarker; (repeat' split) <;> simp
@[simp] theorem moveMarker_claim (p : Port) (c : Choice) (s : State) : (s.moveMarker p c).claim = s.claim := by
  unfold State.moveMarker; (repeat' split) <;> simp
@[simp] theorem moveMarker_exc (p : Port) (c : Choice) (s : State) : (s.moveMarker p c).exc = s.exc := by
  unfold State.moveMarker; (repeat' split) <;> simp
@[simp] theorem moveMarker_check (p : Port) (c : Choice) (s : State) : (s.moveMarker p c).check = s.check := by
  unfold State.moveMarker; (repeat' split) <;> simp
@[simp] theorem moveMarker_follow (p : Port) (c : Choice) (s : State) : (s.moveMarker p c).follow = s.follow := by
  unfold State.moveMarker; (repeat' split) <;> simp
@[simp] theorem moveMarker_freeDraws (p : Port) (c : Choice) (s : State) : (s.moveMarker p c).freeDraws = s.freeDraws := by
  unfold State.moveMarker; (repeat' split) <;> simp
@[simp] theorem moveMarker_pending (p : Port) (c : Choice) (s : State) : (s.moveMarker p c).pending = s.pending := by
  unfold State.moveMarker; (repeat' split) <;> simp

@[simp] theorem sendOrDrop_timebase (p : Port) (d : DequeNo) (r : RecordNo) (s : State) : (s.sendOrDrop p d r).timebase = s.timebase := by
  unfold State.sendOrDrop; (repeat' split) <;> simp
@[simp] theorem sendOrDrop_straps (p : Port) (d : DequeNo) (r : RecordNo) (s : State) : (s.sendOrDrop p d r).straps = s.straps := by
  unfold State.sendOrDrop; (repeat' split) <;> simp
@[simp] theorem sendOrDrop_station (p : Port) (d : DequeNo) (r : RecordNo) (s : State) : (s.sendOrDrop p d r).station = s.station := by
  unfold State.sendOrDrop; (repeat' split) <;> simp
@[simp] theorem sendOrDrop_entries (p : Port) (d : DequeNo) (r : RecordNo) (s : State) : (s.sendOrDrop p d r).entries = s.entries := by
  unfold State.sendOrDrop; (repeat' split) <;> simp
@[simp] theorem sendOrDrop_defaults (p : Port) (d : DequeNo) (r : RecordNo) (s : State) : (s.sendOrDrop p d r).defaults = s.defaults := by
  unfold State.sendOrDrop; (repeat' split) <;> simp
@[simp] theorem sendOrDrop_deques (p : Port) (d : DequeNo) (r : RecordNo) (s : State) : (s.sendOrDrop p d r).deques = s.deques := by
  unfold State.sendOrDrop; (repeat' split) <;> simp
@[simp] theorem sendOrDrop_mem (p : Port) (d : DequeNo) (r : RecordNo) (s : State) : (s.sendOrDrop p d r).mem = s.mem := by
  unfold State.sendOrDrop; (repeat' split) <;> simp
@[simp] theorem sendOrDrop_ecc (p : Port) (d : DequeNo) (r : RecordNo) (s : State) : (s.sendOrDrop p d r).ecc = s.ecc := by
  unfold State.sendOrDrop; (repeat' split) <;> simp
@[simp] theorem sendOrDrop_engine (p : Port) (d : DequeNo) (r : RecordNo) (s : State) : (s.sendOrDrop p d r).engine = s.engine := by
  unfold State.sendOrDrop; (repeat' split) <;> simp
@[simp] theorem sendOrDrop_claim (p : Port) (d : DequeNo) (r : RecordNo) (s : State) : (s.sendOrDrop p d r).claim = s.claim := by
  unfold State.sendOrDrop; (repeat' split) <;> simp
@[simp] theorem sendOrDrop_check (p : Port) (d : DequeNo) (r : RecordNo) (s : State) : (s.sendOrDrop p d r).check = s.check := by
  unfold State.sendOrDrop; (repeat' split) <;> simp
@[simp] theorem sendOrDrop_freeDraws (p : Port) (d : DequeNo) (r : RecordNo) (s : State) : (s.sendOrDrop p d r).freeDraws = s.freeDraws := by
  unfold State.sendOrDrop; (repeat' split) <;> simp
@[simp] theorem sendOrDrop_pending (p : Port) (d : DequeNo) (r : RecordNo) (s : State) : (s.sendOrDrop p d r).pending = s.pending := by
  unfold State.sendOrDrop; (repeat' split) <;> simp

@[simp] theorem takeFrom_timebase (p : Port) (c : Choice) (s : State) : (s.takeFrom p c).timebase = s.timebase := by
  simp only [State.takeFrom]; split <;> simp
@[simp] theorem takeFrom_straps (p : Port) (c : Choice) (s : State) : (s.takeFrom p c).straps = s.straps := by
  simp only [State.takeFrom]; split <;> simp
@[simp] theorem takeFrom_station (p : Port) (c : Choice) (s : State) : (s.takeFrom p c).station = s.station := by
  simp only [State.takeFrom]; split <;> simp
@[simp] theorem takeFrom_entries (p : Port) (c : Choice) (s : State) : (s.takeFrom p c).entries = s.entries := by
  simp only [State.takeFrom]; split <;> simp
@[simp] theorem takeFrom_defaults (p : Port) (c : Choice) (s : State) : (s.takeFrom p c).defaults = s.defaults := by
  simp only [State.takeFrom]; split <;> simp
@[simp] theorem takeFrom_mem (p : Port) (c : Choice) (s : State) : (s.takeFrom p c).mem = s.mem := by
  simp only [State.takeFrom]; split <;> simp
@[simp] theorem takeFrom_ecc (p : Port) (c : Choice) (s : State) : (s.takeFrom p c).ecc = s.ecc := by
  simp only [State.takeFrom]; split <;> simp
@[simp] theorem takeFrom_engine (p : Port) (c : Choice) (s : State) : (s.takeFrom p c).engine = s.engine := by
  simp only [State.takeFrom]; split <;> simp
@[simp] theorem takeFrom_claim (p : Port) (c : Choice) (s : State) : (s.takeFrom p c).claim = s.claim := by
  simp only [State.takeFrom]; split <;> simp
@[simp] theorem takeFrom_check (p : Port) (c : Choice) (s : State) : (s.takeFrom p c).check = s.check := by
  simp only [State.takeFrom]; split <;> simp
@[simp] theorem takeFrom_freeDraws (p : Port) (c : Choice) (s : State) : (s.takeFrom p c).freeDraws = s.freeDraws := by
  simp only [State.takeFrom]; split <;> simp
@[simp] theorem takeFrom_pending (p : Port) (c : Choice) (s : State) : (s.takeFrom p c).pending = s.pending := by
  simp only [State.takeFrom]; split <;> simp

@[simp] theorem takeAttempt_timebase (p : Port) (s : State) : (s.takeAttempt p).timebase = s.timebase := by
  unfold State.takeAttempt; (repeat' split) <;> simp
@[simp] theorem takeAttempt_straps (p : Port) (s : State) : (s.takeAttempt p).straps = s.straps := by
  unfold State.takeAttempt; (repeat' split) <;> simp
@[simp] theorem takeAttempt_station (p : Port) (s : State) : (s.takeAttempt p).station = s.station := by
  unfold State.takeAttempt; (repeat' split) <;> simp
@[simp] theorem takeAttempt_entries (p : Port) (s : State) : (s.takeAttempt p).entries = s.entries := by
  unfold State.takeAttempt; (repeat' split) <;> simp
@[simp] theorem takeAttempt_defaults (p : Port) (s : State) : (s.takeAttempt p).defaults = s.defaults := by
  unfold State.takeAttempt; (repeat' split) <;> simp
@[simp] theorem takeAttempt_mem (p : Port) (s : State) : (s.takeAttempt p).mem = s.mem := by
  unfold State.takeAttempt; (repeat' split) <;> simp
@[simp] theorem takeAttempt_ecc (p : Port) (s : State) : (s.takeAttempt p).ecc = s.ecc := by
  unfold State.takeAttempt; (repeat' split) <;> simp
@[simp] theorem takeAttempt_engine (p : Port) (s : State) : (s.takeAttempt p).engine = s.engine := by
  unfold State.takeAttempt; (repeat' split) <;> simp
@[simp] theorem takeAttempt_claim (p : Port) (s : State) : (s.takeAttempt p).claim = s.claim := by
  unfold State.takeAttempt; (repeat' split) <;> simp
@[simp] theorem takeAttempt_check (p : Port) (s : State) : (s.takeAttempt p).check = s.check := by
  unfold State.takeAttempt; (repeat' split) <;> simp
@[simp] theorem takeAttempt_freeDraws (p : Port) (s : State) : (s.takeAttempt p).freeDraws = s.freeDraws := by
  unfold State.takeAttempt; (repeat' split) <;> simp
@[simp] theorem takeAttempt_pending (p : Port) (s : State) : (s.takeAttempt p).pending = s.pending := by
  unfold State.takeAttempt; (repeat' split) <;> simp

/-- All that `takeAttempt` may change. -/
theorem takeAttempt_shape (p : Port) (s : State) :
    s.takeAttempt p = { s with
      deques := (s.takeAttempt p).deques, freeCells := (s.takeAttempt p).freeCells,
      freeRecords := (s.takeAttempt p).freeRecords, records := (s.takeAttempt p).records,
      ports := (s.takeAttempt p).ports, exc := (s.takeAttempt p).exc,
      follow := (s.takeAttempt p).follow } := by
  ext1 <;> simp

/-- Without an IDLE transmitter, an UP link and a candidate, an attempt changes nothing (R87). -/
theorem takeAttempt_of_none {p : Port} {s : State}
    (h : (∃ r d l, (s.port p).transmitter = .sending r d l) ∨ (s.port p).link.isUp = false ∨ s.select p = none) :
    s.takeAttempt p = s := by
  unfold State.takeAttempt
  cases ht : (s.port p).transmitter with
  | sending r d l => rfl
  | idle =>
    rcases h with ⟨r, d, l, h⟩ | h | h
    · rw [ht] at h; cases h
    · simp [h]
    · simp only [h]; split <;> rfl

/-! ## Links and receivers -/

@[simp] theorem cutLine_timebase (p : Port) (r : RecordNo) (l : List CellNo) (s : State) : (s.cutLine p r l).timebase = s.timebase := by
  simp [State.cutLine]
@[simp] theorem cutLine_straps (p : Port) (r : RecordNo) (l : List CellNo) (s : State) : (s.cutLine p r l).straps = s.straps := by
  simp [State.cutLine]
@[simp] theorem cutLine_station (p : Port) (r : RecordNo) (l : List CellNo) (s : State) : (s.cutLine p r l).station = s.station := by
  simp [State.cutLine]
@[simp] theorem cutLine_entries (p : Port) (r : RecordNo) (l : List CellNo) (s : State) : (s.cutLine p r l).entries = s.entries := by
  simp [State.cutLine]
@[simp] theorem cutLine_defaults (p : Port) (r : RecordNo) (l : List CellNo) (s : State) : (s.cutLine p r l).defaults = s.defaults := by
  simp [State.cutLine]
@[simp] theorem cutLine_deques (p : Port) (r : RecordNo) (l : List CellNo) (s : State) : (s.cutLine p r l).deques = s.deques := by
  simp [State.cutLine]
@[simp] theorem cutLine_mem (p : Port) (r : RecordNo) (l : List CellNo) (s : State) : (s.cutLine p r l).mem = s.mem := by
  simp [State.cutLine]
@[simp] theorem cutLine_ecc (p : Port) (r : RecordNo) (l : List CellNo) (s : State) : (s.cutLine p r l).ecc = s.ecc := by
  simp [State.cutLine]
@[simp] theorem cutLine_freeCells (p : Port) (r : RecordNo) (l : List CellNo) (s : State) : (s.cutLine p r l).freeCells = s.freeCells := by
  simp [State.cutLine]
@[simp] theorem cutLine_freeRecords (p : Port) (r : RecordNo) (l : List CellNo) (s : State) : (s.cutLine p r l).freeRecords = s.freeRecords := by
  simp [State.cutLine]
@[simp] theorem cutLine_records (p : Port) (r : RecordNo) (l : List CellNo) (s : State) : (s.cutLine p r l).records = s.records := by
  simp [State.cutLine]
@[simp] theorem cutLine_engine (p : Port) (r : RecordNo) (l : List CellNo) (s : State) : (s.cutLine p r l).engine = s.engine := by
  simp [State.cutLine]
@[simp] theorem cutLine_claim (p : Port) (r : RecordNo) (l : List CellNo) (s : State) : (s.cutLine p r l).claim = s.claim := by
  simp [State.cutLine]
@[simp] theorem cutLine_exc (p : Port) (r : RecordNo) (l : List CellNo) (s : State) : (s.cutLine p r l).exc = s.exc := by
  simp [State.cutLine]
@[simp] theorem cutLine_check (p : Port) (r : RecordNo) (l : List CellNo) (s : State) : (s.cutLine p r l).check = s.check := by
  simp [State.cutLine]
@[simp] theorem cutLine_follow (p : Port) (r : RecordNo) (l : List CellNo) (s : State) : (s.cutLine p r l).follow = s.follow := by
  simp [State.cutLine]
@[simp] theorem cutLine_pending (p : Port) (r : RecordNo) (l : List CellNo) (s : State) : (s.cutLine p r l).pending = s.pending := by
  simp [State.cutLine]

@[simp] theorem linkAbort_timebase (p : Port) (r : RecordNo) (d : DequeNo) (s : State) : (s.linkAbort p r d).timebase = s.timebase := by
  simp [State.linkAbort]
@[simp] theorem linkAbort_straps (p : Port) (r : RecordNo) (d : DequeNo) (s : State) : (s.linkAbort p r d).straps = s.straps := by
  simp [State.linkAbort]
@[simp] theorem linkAbort_station (p : Port) (r : RecordNo) (d : DequeNo) (s : State) : (s.linkAbort p r d).station = s.station := by
  simp [State.linkAbort]
@[simp] theorem linkAbort_entries (p : Port) (r : RecordNo) (d : DequeNo) (s : State) : (s.linkAbort p r d).entries = s.entries := by
  simp [State.linkAbort]
@[simp] theorem linkAbort_defaults (p : Port) (r : RecordNo) (d : DequeNo) (s : State) : (s.linkAbort p r d).defaults = s.defaults := by
  simp [State.linkAbort]
@[simp] theorem linkAbort_deques (p : Port) (r : RecordNo) (d : DequeNo) (s : State) : (s.linkAbort p r d).deques = s.deques := by
  simp [State.linkAbort]
@[simp] theorem linkAbort_mem (p : Port) (r : RecordNo) (d : DequeNo) (s : State) : (s.linkAbort p r d).mem = s.mem := by
  simp [State.linkAbort]
@[simp] theorem linkAbort_ecc (p : Port) (r : RecordNo) (d : DequeNo) (s : State) : (s.linkAbort p r d).ecc = s.ecc := by
  simp [State.linkAbort]
@[simp] theorem linkAbort_freeCells (p : Port) (r : RecordNo) (d : DequeNo) (s : State) : (s.linkAbort p r d).freeCells = s.freeCells := by
  simp [State.linkAbort]
@[simp] theorem linkAbort_freeRecords (p : Port) (r : RecordNo) (d : DequeNo) (s : State) : (s.linkAbort p r d).freeRecords = s.freeRecords := by
  simp [State.linkAbort]
@[simp] theorem linkAbort_records (p : Port) (r : RecordNo) (d : DequeNo) (s : State) : (s.linkAbort p r d).records = s.records := by
  simp [State.linkAbort]
@[simp] theorem linkAbort_ports (p : Port) (r : RecordNo) (d : DequeNo) (s : State) : (s.linkAbort p r d).ports = s.ports := by
  simp [State.linkAbort]
@[simp] theorem linkAbort_engine (p : Port) (r : RecordNo) (d : DequeNo) (s : State) : (s.linkAbort p r d).engine = s.engine := by
  simp [State.linkAbort]
@[simp] theorem linkAbort_claim (p : Port) (r : RecordNo) (d : DequeNo) (s : State) : (s.linkAbort p r d).claim = s.claim := by
  simp [State.linkAbort]
@[simp] theorem linkAbort_check (p : Port) (r : RecordNo) (d : DequeNo) (s : State) : (s.linkAbort p r d).check = s.check := by
  simp [State.linkAbort]
@[simp] theorem linkAbort_freeDraws (p : Port) (r : RecordNo) (d : DequeNo) (s : State) : (s.linkAbort p r d).freeDraws = s.freeDraws := by
  simp [State.linkAbort]
@[simp] theorem linkAbort_pending (p : Port) (r : RecordNo) (d : DequeNo) (s : State) : (s.linkAbort p r d).pending = s.pending := by
  simp [State.linkAbort]

/-- A state that an arrival answers with is the arrival's state. -/
theorem arrive_eq_snd {s t : State} {d : DequeNo} {r : RecordNo} {e : Insertion} {a : Arrival}
    (h : s.arrive d r e = (a, t)) : t = (s.arrive d r e).2 := by
  rw [h]

@[simp] theorem requeue_timebase (p : Port) (r : RecordNo) (d : DequeNo) (s : State) : (s.requeue p r d).timebase = s.timebase := by
  unfold State.requeue
  (repeat' split) <;> (try rename_i ha) <;> first | (simp; done) | simp [arrive_eq_snd ha]
@[simp] theorem requeue_straps (p : Port) (r : RecordNo) (d : DequeNo) (s : State) : (s.requeue p r d).straps = s.straps := by
  unfold State.requeue
  (repeat' split) <;> (try rename_i ha) <;> first | (simp; done) | simp [arrive_eq_snd ha]
@[simp] theorem requeue_station (p : Port) (r : RecordNo) (d : DequeNo) (s : State) : (s.requeue p r d).station = s.station := by
  unfold State.requeue
  (repeat' split) <;> (try rename_i ha) <;> first | (simp; done) | simp [arrive_eq_snd ha]
@[simp] theorem requeue_entries (p : Port) (r : RecordNo) (d : DequeNo) (s : State) : (s.requeue p r d).entries = s.entries := by
  unfold State.requeue
  (repeat' split) <;> (try rename_i ha) <;> first | (simp; done) | simp [arrive_eq_snd ha]
@[simp] theorem requeue_defaults (p : Port) (r : RecordNo) (d : DequeNo) (s : State) : (s.requeue p r d).defaults = s.defaults := by
  unfold State.requeue
  (repeat' split) <;> (try rename_i ha) <;> first | (simp; done) | simp [arrive_eq_snd ha]
@[simp] theorem requeue_mem (p : Port) (r : RecordNo) (d : DequeNo) (s : State) : (s.requeue p r d).mem = s.mem := by
  unfold State.requeue
  (repeat' split) <;> (try rename_i ha) <;> first | (simp; done) | simp [arrive_eq_snd ha]
@[simp] theorem requeue_ecc (p : Port) (r : RecordNo) (d : DequeNo) (s : State) : (s.requeue p r d).ecc = s.ecc := by
  unfold State.requeue
  (repeat' split) <;> (try rename_i ha) <;> first | (simp; done) | simp [arrive_eq_snd ha]
@[simp] theorem requeue_ports (p : Port) (r : RecordNo) (d : DequeNo) (s : State) : (s.requeue p r d).ports = s.ports := by
  unfold State.requeue
  (repeat' split) <;> (try rename_i ha) <;> first | (simp; done) | simp [arrive_eq_snd ha]
@[simp] theorem requeue_engine (p : Port) (r : RecordNo) (d : DequeNo) (s : State) : (s.requeue p r d).engine = s.engine := by
  unfold State.requeue
  (repeat' split) <;> (try rename_i ha) <;> first | (simp; done) | simp [arrive_eq_snd ha]
@[simp] theorem requeue_claim (p : Port) (r : RecordNo) (d : DequeNo) (s : State) : (s.requeue p r d).claim = s.claim := by
  unfold State.requeue
  (repeat' split) <;> (try rename_i ha) <;> first | (simp; done) | simp [arrive_eq_snd ha]
@[simp] theorem requeue_check (p : Port) (r : RecordNo) (d : DequeNo) (s : State) : (s.requeue p r d).check = s.check := by
  unfold State.requeue
  (repeat' split) <;> (try rename_i ha) <;> first | (simp; done) | simp [arrive_eq_snd ha]
@[simp] theorem requeue_freeDraws (p : Port) (r : RecordNo) (d : DequeNo) (s : State) : (s.requeue p r d).freeDraws = s.freeDraws := by
  unfold State.requeue
  (repeat' split) <;> (try rename_i ha) <;> first | (simp; done) | simp [arrive_eq_snd ha]
@[simp] theorem requeue_pending (p : Port) (r : RecordNo) (d : DequeNo) (s : State) : (s.requeue p r d).pending = s.pending := by
  unfold State.requeue
  (repeat' split) <;> (try rename_i ha) <;> first | (simp; done) | simp [arrive_eq_snd ha]

@[simp] theorem abort_timebase (p : Port) (s : State) : (s.abort p).timebase = s.timebase := by
  unfold State.abort; (repeat' split) <;> simp
@[simp] theorem abort_straps (p : Port) (s : State) : (s.abort p).straps = s.straps := by
  unfold State.abort; (repeat' split) <;> simp
@[simp] theorem abort_station (p : Port) (s : State) : (s.abort p).station = s.station := by
  unfold State.abort; (repeat' split) <;> simp
@[simp] theorem abort_entries (p : Port) (s : State) : (s.abort p).entries = s.entries := by
  unfold State.abort; (repeat' split) <;> simp
@[simp] theorem abort_defaults (p : Port) (s : State) : (s.abort p).defaults = s.defaults := by
  unfold State.abort; (repeat' split) <;> simp
@[simp] theorem abort_mem (p : Port) (s : State) : (s.abort p).mem = s.mem := by
  unfold State.abort; (repeat' split) <;> simp
@[simp] theorem abort_ecc (p : Port) (s : State) : (s.abort p).ecc = s.ecc := by
  unfold State.abort; (repeat' split) <;> simp
@[simp] theorem abort_engine (p : Port) (s : State) : (s.abort p).engine = s.engine := by
  unfold State.abort; (repeat' split) <;> simp
@[simp] theorem abort_claim (p : Port) (s : State) : (s.abort p).claim = s.claim := by
  unfold State.abort; (repeat' split) <;> simp
@[simp] theorem abort_check (p : Port) (s : State) : (s.abort p).check = s.check := by
  unfold State.abort; (repeat' split) <;> simp
@[simp] theorem abort_pending (p : Port) (s : State) : (s.abort p).pending = s.pending := by
  unfold State.abort; (repeat' split) <;> simp

/-- All that `abort` may change. -/
theorem abort_shape (p : Port) (s : State) :
    s.abort p = { s with
      deques := (s.abort p).deques, freeCells := (s.abort p).freeCells,
      freeRecords := (s.abort p).freeRecords, records := (s.abort p).records,
      ports := (s.abort p).ports, exc := (s.abort p).exc,
      follow := (s.abort p).follow, freeDraws := (s.abort p).freeDraws } := by
  ext1 <;> simp

@[simp] theorem returnReceived_timebase (r : RecordNo) (s : State) : (s.returnReceived r).timebase = s.timebase := by
  unfold State.returnReceived; (repeat' split) <;> simp
@[simp] theorem returnReceived_straps (r : RecordNo) (s : State) : (s.returnReceived r).straps = s.straps := by
  unfold State.returnReceived; (repeat' split) <;> simp
@[simp] theorem returnReceived_station (r : RecordNo) (s : State) : (s.returnReceived r).station = s.station := by
  unfold State.returnReceived; (repeat' split) <;> simp
@[simp] theorem returnReceived_entries (r : RecordNo) (s : State) : (s.returnReceived r).entries = s.entries := by
  unfold State.returnReceived; (repeat' split) <;> simp
@[simp] theorem returnReceived_defaults (r : RecordNo) (s : State) : (s.returnReceived r).defaults = s.defaults := by
  unfold State.returnReceived; (repeat' split) <;> simp
@[simp] theorem returnReceived_deques (r : RecordNo) (s : State) : (s.returnReceived r).deques = s.deques := by
  unfold State.returnReceived; (repeat' split) <;> simp
@[simp] theorem returnReceived_mem (r : RecordNo) (s : State) : (s.returnReceived r).mem = s.mem := by
  unfold State.returnReceived; (repeat' split) <;> simp
@[simp] theorem returnReceived_ecc (r : RecordNo) (s : State) : (s.returnReceived r).ecc = s.ecc := by
  unfold State.returnReceived; (repeat' split) <;> simp
@[simp] theorem returnReceived_ports (r : RecordNo) (s : State) : (s.returnReceived r).ports = s.ports := by
  unfold State.returnReceived; (repeat' split) <;> simp
@[simp] theorem returnReceived_engine (r : RecordNo) (s : State) : (s.returnReceived r).engine = s.engine := by
  unfold State.returnReceived; (repeat' split) <;> simp
@[simp] theorem returnReceived_claim (r : RecordNo) (s : State) : (s.returnReceived r).claim = s.claim := by
  unfold State.returnReceived; (repeat' split) <;> simp
@[simp] theorem returnReceived_exc (r : RecordNo) (s : State) : (s.returnReceived r).exc = s.exc := by
  unfold State.returnReceived; (repeat' split) <;> simp
@[simp] theorem returnReceived_check (r : RecordNo) (s : State) : (s.returnReceived r).check = s.check := by
  unfold State.returnReceived; (repeat' split) <;> simp
@[simp] theorem returnReceived_follow (r : RecordNo) (s : State) : (s.returnReceived r).follow = s.follow := by
  unfold State.returnReceived; (repeat' split) <;> simp
@[simp] theorem returnReceived_freeDraws (r : RecordNo) (s : State) : (s.returnReceived r).freeDraws = s.freeDraws := by
  unfold State.returnReceived; (repeat' split) <;> simp
@[simp] theorem returnReceived_pending (r : RecordNo) (s : State) : (s.returnReceived r).pending = s.pending := by
  unfold State.returnReceived; (repeat' split) <;> simp

@[simp] theorem portReport_timebase (p : Port) (c : ExcCode) (s : State) : (s.portReport p c).timebase = s.timebase := by
  simp [State.portReport]
@[simp] theorem portReport_straps (p : Port) (c : ExcCode) (s : State) : (s.portReport p c).straps = s.straps := by
  simp [State.portReport]
@[simp] theorem portReport_station (p : Port) (c : ExcCode) (s : State) : (s.portReport p c).station = s.station := by
  simp [State.portReport]
@[simp] theorem portReport_entries (p : Port) (c : ExcCode) (s : State) : (s.portReport p c).entries = s.entries := by
  simp [State.portReport]
@[simp] theorem portReport_defaults (p : Port) (c : ExcCode) (s : State) : (s.portReport p c).defaults = s.defaults := by
  simp [State.portReport]
@[simp] theorem portReport_deques (p : Port) (c : ExcCode) (s : State) : (s.portReport p c).deques = s.deques := by
  simp [State.portReport]
@[simp] theorem portReport_mem (p : Port) (c : ExcCode) (s : State) : (s.portReport p c).mem = s.mem := by
  simp [State.portReport]
@[simp] theorem portReport_ecc (p : Port) (c : ExcCode) (s : State) : (s.portReport p c).ecc = s.ecc := by
  simp [State.portReport]
@[simp] theorem portReport_freeCells (p : Port) (c : ExcCode) (s : State) : (s.portReport p c).freeCells = s.freeCells := by
  simp [State.portReport]
@[simp] theorem portReport_freeRecords (p : Port) (c : ExcCode) (s : State) : (s.portReport p c).freeRecords = s.freeRecords := by
  simp [State.portReport]
@[simp] theorem portReport_records (p : Port) (c : ExcCode) (s : State) : (s.portReport p c).records = s.records := by
  simp [State.portReport]
@[simp] theorem portReport_ports (p : Port) (c : ExcCode) (s : State) : (s.portReport p c).ports = s.ports := by
  simp [State.portReport]
@[simp] theorem portReport_engine (p : Port) (c : ExcCode) (s : State) : (s.portReport p c).engine = s.engine := by
  simp [State.portReport]
@[simp] theorem portReport_claim (p : Port) (c : ExcCode) (s : State) : (s.portReport p c).claim = s.claim := by
  simp [State.portReport]
@[simp] theorem portReport_check (p : Port) (c : ExcCode) (s : State) : (s.portReport p c).check = s.check := by
  simp [State.portReport]
@[simp] theorem portReport_freeDraws (p : Port) (c : ExcCode) (s : State) : (s.portReport p c).freeDraws = s.freeDraws := by
  simp [State.portReport]
@[simp] theorem portReport_pending (p : Port) (c : ExcCode) (s : State) : (s.portReport p c).pending = s.pending := by
  simp [State.portReport]

@[simp] theorem cutReception_timebase (p : Port) (s : State) : (s.cutReception p).timebase = s.timebase := by
  unfold State.cutReception; (repeat' split) <;> simp
@[simp] theorem cutReception_straps (p : Port) (s : State) : (s.cutReception p).straps = s.straps := by
  unfold State.cutReception; (repeat' split) <;> simp
@[simp] theorem cutReception_station (p : Port) (s : State) : (s.cutReception p).station = s.station := by
  unfold State.cutReception; (repeat' split) <;> simp
@[simp] theorem cutReception_entries (p : Port) (s : State) : (s.cutReception p).entries = s.entries := by
  unfold State.cutReception; (repeat' split) <;> simp
@[simp] theorem cutReception_defaults (p : Port) (s : State) : (s.cutReception p).defaults = s.defaults := by
  unfold State.cutReception; (repeat' split) <;> simp
@[simp] theorem cutReception_deques (p : Port) (s : State) : (s.cutReception p).deques = s.deques := by
  unfold State.cutReception; (repeat' split) <;> simp
@[simp] theorem cutReception_mem (p : Port) (s : State) : (s.cutReception p).mem = s.mem := by
  unfold State.cutReception; (repeat' split) <;> simp
@[simp] theorem cutReception_ecc (p : Port) (s : State) : (s.cutReception p).ecc = s.ecc := by
  unfold State.cutReception; (repeat' split) <;> simp
@[simp] theorem cutReception_engine (p : Port) (s : State) : (s.cutReception p).engine = s.engine := by
  unfold State.cutReception; (repeat' split) <;> simp
@[simp] theorem cutReception_claim (p : Port) (s : State) : (s.cutReception p).claim = s.claim := by
  unfold State.cutReception; (repeat' split) <;> simp
@[simp] theorem cutReception_check (p : Port) (s : State) : (s.cutReception p).check = s.check := by
  unfold State.cutReception; (repeat' split) <;> simp
@[simp] theorem cutReception_freeDraws (p : Port) (s : State) : (s.cutReception p).freeDraws = s.freeDraws := by
  unfold State.cutReception; (repeat' split) <;> simp
@[simp] theorem cutReception_pending (p : Port) (s : State) : (s.cutReception p).pending = s.pending := by
  unfold State.cutReception; (repeat' split) <;> simp

/-- All that `cutReception` may change. -/
theorem cutReception_shape (p : Port) (s : State) :
    s.cutReception p = { s with
      freeCells := (s.cutReception p).freeCells, freeRecords := (s.cutReception p).freeRecords,
      records := (s.cutReception p).records, ports := (s.cutReception p).ports,
      exc := (s.cutReception p).exc, follow := (s.cutReception p).follow } := by
  ext1 <;> simp

@[simp] theorem dropWaits_timebase (p : Port) (s : State) : (s.dropWaits p).timebase = s.timebase := by
  simp [State.dropWaits]
@[simp] theorem dropWaits_straps (p : Port) (s : State) : (s.dropWaits p).straps = s.straps := by
  simp [State.dropWaits]
@[simp] theorem dropWaits_station (p : Port) (s : State) : (s.dropWaits p).station = s.station := by
  simp [State.dropWaits]
@[simp] theorem dropWaits_entries (p : Port) (s : State) : (s.dropWaits p).entries = s.entries := by
  simp [State.dropWaits]
@[simp] theorem dropWaits_defaults (p : Port) (s : State) : (s.dropWaits p).defaults = s.defaults := by
  simp [State.dropWaits]
@[simp] theorem dropWaits_deques (p : Port) (s : State) : (s.dropWaits p).deques = s.deques := by
  simp [State.dropWaits]
@[simp] theorem dropWaits_mem (p : Port) (s : State) : (s.dropWaits p).mem = s.mem := by
  simp [State.dropWaits]
@[simp] theorem dropWaits_ecc (p : Port) (s : State) : (s.dropWaits p).ecc = s.ecc := by
  simp [State.dropWaits]
@[simp] theorem dropWaits_freeCells (p : Port) (s : State) : (s.dropWaits p).freeCells = s.freeCells := by
  simp [State.dropWaits]
@[simp] theorem dropWaits_freeRecords (p : Port) (s : State) : (s.dropWaits p).freeRecords = s.freeRecords := by
  simp [State.dropWaits]
@[simp] theorem dropWaits_records (p : Port) (s : State) : (s.dropWaits p).records = s.records := by
  simp [State.dropWaits]
@[simp] theorem dropWaits_engine (p : Port) (s : State) : (s.dropWaits p).engine = s.engine := by
  simp [State.dropWaits]
@[simp] theorem dropWaits_claim (p : Port) (s : State) : (s.dropWaits p).claim = s.claim := by
  simp [State.dropWaits]
@[simp] theorem dropWaits_exc (p : Port) (s : State) : (s.dropWaits p).exc = s.exc := by
  simp [State.dropWaits]
@[simp] theorem dropWaits_check (p : Port) (s : State) : (s.dropWaits p).check = s.check := by
  simp [State.dropWaits]
@[simp] theorem dropWaits_follow (p : Port) (s : State) : (s.dropWaits p).follow = s.follow := by
  simp [State.dropWaits]
@[simp] theorem dropWaits_freeDraws (p : Port) (s : State) : (s.dropWaits p).freeDraws = s.freeDraws := by
  simp [State.dropWaits]
@[simp] theorem dropWaits_pending (p : Port) (s : State) : (s.dropWaits p).pending = s.pending := by
  simp [State.dropWaits]

@[simp] theorem leaveUp_timebase (p : Port) (s : State) : (s.leaveUp p).timebase = s.timebase := by
  simp [State.leaveUp]
@[simp] theorem leaveUp_straps (p : Port) (s : State) : (s.leaveUp p).straps = s.straps := by
  simp [State.leaveUp]
@[simp] theorem leaveUp_station (p : Port) (s : State) : (s.leaveUp p).station = s.station := by
  simp [State.leaveUp]
@[simp] theorem leaveUp_entries (p : Port) (s : State) : (s.leaveUp p).entries = s.entries := by
  simp [State.leaveUp]
@[simp] theorem leaveUp_defaults (p : Port) (s : State) : (s.leaveUp p).defaults = s.defaults := by
  simp [State.leaveUp]
@[simp] theorem leaveUp_mem (p : Port) (s : State) : (s.leaveUp p).mem = s.mem := by
  simp [State.leaveUp]
@[simp] theorem leaveUp_ecc (p : Port) (s : State) : (s.leaveUp p).ecc = s.ecc := by
  simp [State.leaveUp]
@[simp] theorem leaveUp_engine (p : Port) (s : State) : (s.leaveUp p).engine = s.engine := by
  simp [State.leaveUp]
@[simp] theorem leaveUp_claim (p : Port) (s : State) : (s.leaveUp p).claim = s.claim := by
  simp [State.leaveUp]
@[simp] theorem leaveUp_check (p : Port) (s : State) : (s.leaveUp p).check = s.check := by
  simp [State.leaveUp]
@[simp] theorem leaveUp_pending (p : Port) (s : State) : (s.leaveUp p).pending = s.pending := by
  simp [State.leaveUp]

/-- All that `leaveUp` may change. -/
theorem leaveUp_shape (p : Port) (s : State) :
    s.leaveUp p = { s with
      deques := (s.leaveUp p).deques, freeCells := (s.leaveUp p).freeCells,
      freeRecords := (s.leaveUp p).freeRecords, records := (s.leaveUp p).records,
      ports := (s.leaveUp p).ports, exc := (s.leaveUp p).exc,
      follow := (s.leaveUp p).follow, freeDraws := (s.leaveUp p).freeDraws } := by
  ext1 <;> simp

@[simp] theorem becomeUp_timebase (p : Port) (s : State) : (s.becomeUp p).timebase = s.timebase := by
  simp [State.becomeUp]
@[simp] theorem becomeUp_straps (p : Port) (s : State) : (s.becomeUp p).straps = s.straps := by
  simp [State.becomeUp]
@[simp] theorem becomeUp_station (p : Port) (s : State) : (s.becomeUp p).station = s.station := by
  simp [State.becomeUp]
@[simp] theorem becomeUp_entries (p : Port) (s : State) : (s.becomeUp p).entries = s.entries := by
  simp [State.becomeUp]
@[simp] theorem becomeUp_defaults (p : Port) (s : State) : (s.becomeUp p).defaults = s.defaults := by
  simp [State.becomeUp]
@[simp] theorem becomeUp_mem (p : Port) (s : State) : (s.becomeUp p).mem = s.mem := by
  simp [State.becomeUp]
@[simp] theorem becomeUp_ecc (p : Port) (s : State) : (s.becomeUp p).ecc = s.ecc := by
  simp [State.becomeUp]
@[simp] theorem becomeUp_engine (p : Port) (s : State) : (s.becomeUp p).engine = s.engine := by
  simp [State.becomeUp]
@[simp] theorem becomeUp_claim (p : Port) (s : State) : (s.becomeUp p).claim = s.claim := by
  simp [State.becomeUp]
@[simp] theorem becomeUp_check (p : Port) (s : State) : (s.becomeUp p).check = s.check := by
  simp [State.becomeUp]
@[simp] theorem becomeUp_freeDraws (p : Port) (s : State) : (s.becomeUp p).freeDraws = s.freeDraws := by
  simp [State.becomeUp]
@[simp] theorem becomeUp_pending (p : Port) (s : State) : (s.becomeUp p).pending = s.pending := by
  simp [State.becomeUp]

/-- All that `becomeUp` may change. -/
theorem becomeUp_shape (p : Port) (s : State) :
    s.becomeUp p = { s with
      deques := (s.becomeUp p).deques, freeCells := (s.becomeUp p).freeCells,
      freeRecords := (s.becomeUp p).freeRecords, records := (s.becomeUp p).records,
      ports := (s.becomeUp p).ports, exc := (s.becomeUp p).exc,
      follow := (s.becomeUp p).follow } := by
  ext1 <;> simp

@[simp] theorem markDamage_timebase (p : Port) (s : State) : (s.markDamage p).timebase = s.timebase := by
  unfold State.markDamage; (repeat' split) <;> simp
@[simp] theorem markDamage_straps (p : Port) (s : State) : (s.markDamage p).straps = s.straps := by
  unfold State.markDamage; (repeat' split) <;> simp
@[simp] theorem markDamage_station (p : Port) (s : State) : (s.markDamage p).station = s.station := by
  unfold State.markDamage; (repeat' split) <;> simp
@[simp] theorem markDamage_entries (p : Port) (s : State) : (s.markDamage p).entries = s.entries := by
  unfold State.markDamage; (repeat' split) <;> simp
@[simp] theorem markDamage_defaults (p : Port) (s : State) : (s.markDamage p).defaults = s.defaults := by
  unfold State.markDamage; (repeat' split) <;> simp
@[simp] theorem markDamage_deques (p : Port) (s : State) : (s.markDamage p).deques = s.deques := by
  unfold State.markDamage; (repeat' split) <;> simp
@[simp] theorem markDamage_mem (p : Port) (s : State) : (s.markDamage p).mem = s.mem := by
  unfold State.markDamage; (repeat' split) <;> simp
@[simp] theorem markDamage_ecc (p : Port) (s : State) : (s.markDamage p).ecc = s.ecc := by
  unfold State.markDamage; (repeat' split) <;> simp
@[simp] theorem markDamage_freeCells (p : Port) (s : State) : (s.markDamage p).freeCells = s.freeCells := by
  unfold State.markDamage; (repeat' split) <;> simp
@[simp] theorem markDamage_freeRecords (p : Port) (s : State) : (s.markDamage p).freeRecords = s.freeRecords := by
  unfold State.markDamage; (repeat' split) <;> simp
@[simp] theorem markDamage_records (p : Port) (s : State) : (s.markDamage p).records = s.records := by
  unfold State.markDamage; (repeat' split) <;> simp
@[simp] theorem markDamage_engine (p : Port) (s : State) : (s.markDamage p).engine = s.engine := by
  unfold State.markDamage; (repeat' split) <;> simp
@[simp] theorem markDamage_claim (p : Port) (s : State) : (s.markDamage p).claim = s.claim := by
  unfold State.markDamage; (repeat' split) <;> simp
@[simp] theorem markDamage_exc (p : Port) (s : State) : (s.markDamage p).exc = s.exc := by
  unfold State.markDamage; (repeat' split) <;> simp
@[simp] theorem markDamage_check (p : Port) (s : State) : (s.markDamage p).check = s.check := by
  unfold State.markDamage; (repeat' split) <;> simp
@[simp] theorem markDamage_follow (p : Port) (s : State) : (s.markDamage p).follow = s.follow := by
  unfold State.markDamage; (repeat' split) <;> simp
@[simp] theorem markDamage_freeDraws (p : Port) (s : State) : (s.markDamage p).freeDraws = s.freeDraws := by
  unfold State.markDamage; (repeat' split) <;> simp
@[simp] theorem markDamage_pending (p : Port) (s : State) : (s.markDamage p).pending = s.pending := by
  unfold State.markDamage; (repeat' split) <;> simp

@[simp] theorem validGroup_timebase (p : Port) (s : State) : (s.validGroup p).timebase = s.timebase := by
  unfold State.validGroup; (repeat' split) <;> simp
@[simp] theorem validGroup_straps (p : Port) (s : State) : (s.validGroup p).straps = s.straps := by
  unfold State.validGroup; (repeat' split) <;> simp
@[simp] theorem validGroup_station (p : Port) (s : State) : (s.validGroup p).station = s.station := by
  unfold State.validGroup; (repeat' split) <;> simp
@[simp] theorem validGroup_entries (p : Port) (s : State) : (s.validGroup p).entries = s.entries := by
  unfold State.validGroup; (repeat' split) <;> simp
@[simp] theorem validGroup_defaults (p : Port) (s : State) : (s.validGroup p).defaults = s.defaults := by
  unfold State.validGroup; (repeat' split) <;> simp
@[simp] theorem validGroup_deques (p : Port) (s : State) : (s.validGroup p).deques = s.deques := by
  unfold State.validGroup; (repeat' split) <;> simp
@[simp] theorem validGroup_mem (p : Port) (s : State) : (s.validGroup p).mem = s.mem := by
  unfold State.validGroup; (repeat' split) <;> simp
@[simp] theorem validGroup_ecc (p : Port) (s : State) : (s.validGroup p).ecc = s.ecc := by
  unfold State.validGroup; (repeat' split) <;> simp
@[simp] theorem validGroup_freeCells (p : Port) (s : State) : (s.validGroup p).freeCells = s.freeCells := by
  unfold State.validGroup; (repeat' split) <;> simp
@[simp] theorem validGroup_freeRecords (p : Port) (s : State) : (s.validGroup p).freeRecords = s.freeRecords := by
  unfold State.validGroup; (repeat' split) <;> simp
@[simp] theorem validGroup_records (p : Port) (s : State) : (s.validGroup p).records = s.records := by
  unfold State.validGroup; (repeat' split) <;> simp
@[simp] theorem validGroup_engine (p : Port) (s : State) : (s.validGroup p).engine = s.engine := by
  unfold State.validGroup; (repeat' split) <;> simp
@[simp] theorem validGroup_claim (p : Port) (s : State) : (s.validGroup p).claim = s.claim := by
  unfold State.validGroup; (repeat' split) <;> simp
@[simp] theorem validGroup_exc (p : Port) (s : State) : (s.validGroup p).exc = s.exc := by
  unfold State.validGroup; (repeat' split) <;> simp
@[simp] theorem validGroup_check (p : Port) (s : State) : (s.validGroup p).check = s.check := by
  unfold State.validGroup; (repeat' split) <;> simp
@[simp] theorem validGroup_follow (p : Port) (s : State) : (s.validGroup p).follow = s.follow := by
  unfold State.validGroup; (repeat' split) <;> simp
@[simp] theorem validGroup_freeDraws (p : Port) (s : State) : (s.validGroup p).freeDraws = s.freeDraws := by
  unfold State.validGroup; (repeat' split) <;> simp
@[simp] theorem validGroup_pending (p : Port) (s : State) : (s.validGroup p).pending = s.pending := by
  unfold State.validGroup; (repeat' split) <;> simp

/-! ## Admission -/

@[simp] theorem admissionReport_timebase (p : Port) (r : RecordNo) (c : ExcCode) (d : Option DequeNo) (e : Option EntryNo) (s : State) : (s.admissionReport p r c d e).timebase = s.timebase := by
  simp [State.admissionReport]
@[simp] theorem admissionReport_straps (p : Port) (r : RecordNo) (c : ExcCode) (d : Option DequeNo) (e : Option EntryNo) (s : State) : (s.admissionReport p r c d e).straps = s.straps := by
  simp [State.admissionReport]
@[simp] theorem admissionReport_station (p : Port) (r : RecordNo) (c : ExcCode) (d : Option DequeNo) (e : Option EntryNo) (s : State) : (s.admissionReport p r c d e).station = s.station := by
  simp [State.admissionReport]
@[simp] theorem admissionReport_entries (p : Port) (r : RecordNo) (c : ExcCode) (d : Option DequeNo) (e : Option EntryNo) (s : State) : (s.admissionReport p r c d e).entries = s.entries := by
  simp [State.admissionReport]
@[simp] theorem admissionReport_defaults (p : Port) (r : RecordNo) (c : ExcCode) (d : Option DequeNo) (e : Option EntryNo) (s : State) : (s.admissionReport p r c d e).defaults = s.defaults := by
  simp [State.admissionReport]
@[simp] theorem admissionReport_deques (p : Port) (r : RecordNo) (c : ExcCode) (d : Option DequeNo) (e : Option EntryNo) (s : State) : (s.admissionReport p r c d e).deques = s.deques := by
  simp [State.admissionReport]
@[simp] theorem admissionReport_mem (p : Port) (r : RecordNo) (c : ExcCode) (d : Option DequeNo) (e : Option EntryNo) (s : State) : (s.admissionReport p r c d e).mem = s.mem := by
  simp [State.admissionReport]
@[simp] theorem admissionReport_ecc (p : Port) (r : RecordNo) (c : ExcCode) (d : Option DequeNo) (e : Option EntryNo) (s : State) : (s.admissionReport p r c d e).ecc = s.ecc := by
  simp [State.admissionReport]
@[simp] theorem admissionReport_freeCells (p : Port) (r : RecordNo) (c : ExcCode) (d : Option DequeNo) (e : Option EntryNo) (s : State) : (s.admissionReport p r c d e).freeCells = s.freeCells := by
  simp [State.admissionReport]
@[simp] theorem admissionReport_freeRecords (p : Port) (r : RecordNo) (c : ExcCode) (d : Option DequeNo) (e : Option EntryNo) (s : State) : (s.admissionReport p r c d e).freeRecords = s.freeRecords := by
  simp [State.admissionReport]
@[simp] theorem admissionReport_records (p : Port) (r : RecordNo) (c : ExcCode) (d : Option DequeNo) (e : Option EntryNo) (s : State) : (s.admissionReport p r c d e).records = s.records := by
  simp [State.admissionReport]
@[simp] theorem admissionReport_ports (p : Port) (r : RecordNo) (c : ExcCode) (d : Option DequeNo) (e : Option EntryNo) (s : State) : (s.admissionReport p r c d e).ports = s.ports := by
  simp [State.admissionReport]
@[simp] theorem admissionReport_engine (p : Port) (r : RecordNo) (c : ExcCode) (d : Option DequeNo) (e : Option EntryNo) (s : State) : (s.admissionReport p r c d e).engine = s.engine := by
  simp [State.admissionReport]
@[simp] theorem admissionReport_claim (p : Port) (r : RecordNo) (c : ExcCode) (d : Option DequeNo) (e : Option EntryNo) (s : State) : (s.admissionReport p r c d e).claim = s.claim := by
  simp [State.admissionReport]
@[simp] theorem admissionReport_check (p : Port) (r : RecordNo) (c : ExcCode) (d : Option DequeNo) (e : Option EntryNo) (s : State) : (s.admissionReport p r c d e).check = s.check := by
  simp [State.admissionReport]
@[simp] theorem admissionReport_freeDraws (p : Port) (r : RecordNo) (c : ExcCode) (d : Option DequeNo) (e : Option EntryNo) (s : State) : (s.admissionReport p r c d e).freeDraws = s.freeDraws := by
  simp [State.admissionReport]
@[simp] theorem admissionReport_pending (p : Port) (r : RecordNo) (c : ExcCode) (d : Option DequeNo) (e : Option EntryNo) (s : State) : (s.admissionReport p r c d e).pending = s.pending := by
  simp [State.admissionReport]

@[simp] theorem handOver_timebase (p : Port) (r : RecordNo) (f : ReceivingFrame) (n : Nat) (h : Header) (s : State) : (s.handOver p r f n h).timebase = s.timebase := by
  simp [State.handOver]
@[simp] theorem handOver_straps (p : Port) (r : RecordNo) (f : ReceivingFrame) (n : Nat) (h : Header) (s : State) : (s.handOver p r f n h).straps = s.straps := by
  simp [State.handOver]
@[simp] theorem handOver_station (p : Port) (r : RecordNo) (f : ReceivingFrame) (n : Nat) (h : Header) (s : State) : (s.handOver p r f n h).station = s.station := by
  simp [State.handOver]
@[simp] theorem handOver_entries (p : Port) (r : RecordNo) (f : ReceivingFrame) (n : Nat) (h : Header) (s : State) : (s.handOver p r f n h).entries = s.entries := by
  simp [State.handOver]
@[simp] theorem handOver_defaults (p : Port) (r : RecordNo) (f : ReceivingFrame) (n : Nat) (h : Header) (s : State) : (s.handOver p r f n h).defaults = s.defaults := by
  simp [State.handOver]
@[simp] theorem handOver_deques (p : Port) (r : RecordNo) (f : ReceivingFrame) (n : Nat) (h : Header) (s : State) : (s.handOver p r f n h).deques = s.deques := by
  simp [State.handOver]
@[simp] theorem handOver_mem (p : Port) (r : RecordNo) (f : ReceivingFrame) (n : Nat) (h : Header) (s : State) : (s.handOver p r f n h).mem = s.mem := by
  simp [State.handOver]
@[simp] theorem handOver_ecc (p : Port) (r : RecordNo) (f : ReceivingFrame) (n : Nat) (h : Header) (s : State) : (s.handOver p r f n h).ecc = s.ecc := by
  simp [State.handOver]
@[simp] theorem handOver_freeCells (p : Port) (r : RecordNo) (f : ReceivingFrame) (n : Nat) (h : Header) (s : State) : (s.handOver p r f n h).freeCells = s.freeCells := by
  simp [State.handOver]
@[simp] theorem handOver_freeRecords (p : Port) (r : RecordNo) (f : ReceivingFrame) (n : Nat) (h : Header) (s : State) : (s.handOver p r f n h).freeRecords = s.freeRecords := by
  simp [State.handOver]
@[simp] theorem handOver_engine (p : Port) (r : RecordNo) (f : ReceivingFrame) (n : Nat) (h : Header) (s : State) : (s.handOver p r f n h).engine = s.engine := by
  simp [State.handOver]
@[simp] theorem handOver_claim (p : Port) (r : RecordNo) (f : ReceivingFrame) (n : Nat) (h : Header) (s : State) : (s.handOver p r f n h).claim = s.claim := by
  simp [State.handOver]
@[simp] theorem handOver_exc (p : Port) (r : RecordNo) (f : ReceivingFrame) (n : Nat) (h : Header) (s : State) : (s.handOver p r f n h).exc = s.exc := by
  simp [State.handOver]
@[simp] theorem handOver_check (p : Port) (r : RecordNo) (f : ReceivingFrame) (n : Nat) (h : Header) (s : State) : (s.handOver p r f n h).check = s.check := by
  simp [State.handOver]
@[simp] theorem handOver_follow (p : Port) (r : RecordNo) (f : ReceivingFrame) (n : Nat) (h : Header) (s : State) : (s.handOver p r f n h).follow = s.follow := by
  simp [State.handOver]
@[simp] theorem handOver_freeDraws (p : Port) (r : RecordNo) (f : ReceivingFrame) (n : Nat) (h : Header) (s : State) : (s.handOver p r f n h).freeDraws = s.freeDraws := by
  simp [State.handOver]
@[simp] theorem handOver_pending (p : Port) (r : RecordNo) (f : ReceivingFrame) (n : Nat) (h : Header) (s : State) : (s.handOver p r f n h).pending = s.pending := by
  simp [State.handOver]

@[simp] theorem admissionRelease_timebase (p : Port) (r : RecordNo) (s : State) : (s.admissionRelease p r).timebase = s.timebase := by
  simp [State.admissionRelease]
@[simp] theorem admissionRelease_straps (p : Port) (r : RecordNo) (s : State) : (s.admissionRelease p r).straps = s.straps := by
  simp [State.admissionRelease]
@[simp] theorem admissionRelease_station (p : Port) (r : RecordNo) (s : State) : (s.admissionRelease p r).station = s.station := by
  simp [State.admissionRelease]
@[simp] theorem admissionRelease_entries (p : Port) (r : RecordNo) (s : State) : (s.admissionRelease p r).entries = s.entries := by
  simp [State.admissionRelease]
@[simp] theorem admissionRelease_defaults (p : Port) (r : RecordNo) (s : State) : (s.admissionRelease p r).defaults = s.defaults := by
  simp [State.admissionRelease]
@[simp] theorem admissionRelease_deques (p : Port) (r : RecordNo) (s : State) : (s.admissionRelease p r).deques = s.deques := by
  simp [State.admissionRelease]
@[simp] theorem admissionRelease_mem (p : Port) (r : RecordNo) (s : State) : (s.admissionRelease p r).mem = s.mem := by
  simp [State.admissionRelease]
@[simp] theorem admissionRelease_ecc (p : Port) (r : RecordNo) (s : State) : (s.admissionRelease p r).ecc = s.ecc := by
  simp [State.admissionRelease]
@[simp] theorem admissionRelease_engine (p : Port) (r : RecordNo) (s : State) : (s.admissionRelease p r).engine = s.engine := by
  simp [State.admissionRelease]
@[simp] theorem admissionRelease_claim (p : Port) (r : RecordNo) (s : State) : (s.admissionRelease p r).claim = s.claim := by
  simp [State.admissionRelease]
@[simp] theorem admissionRelease_exc (p : Port) (r : RecordNo) (s : State) : (s.admissionRelease p r).exc = s.exc := by
  simp [State.admissionRelease]
@[simp] theorem admissionRelease_check (p : Port) (r : RecordNo) (s : State) : (s.admissionRelease p r).check = s.check := by
  simp [State.admissionRelease]
@[simp] theorem admissionRelease_follow (p : Port) (r : RecordNo) (s : State) : (s.admissionRelease p r).follow = s.follow := by
  simp [State.admissionRelease]
@[simp] theorem admissionRelease_freeDraws (p : Port) (r : RecordNo) (s : State) : (s.admissionRelease p r).freeDraws = s.freeDraws := by
  simp [State.admissionRelease]
@[simp] theorem admissionRelease_pending (p : Port) (r : RecordNo) (s : State) : (s.admissionRelease p r).pending = s.pending := by
  simp [State.admissionRelease]

@[simp] theorem intakeAppend_timebase (p : Port) (r : RecordNo) (s : State) : (s.intakeAppend p r).timebase = s.timebase := by
  unfold State.intakeAppend
  (repeat' split) <;> (try rename_i ha) <;> first | (simp; done) | simp [arrive_eq_snd ha]
@[simp] theorem intakeAppend_straps (p : Port) (r : RecordNo) (s : State) : (s.intakeAppend p r).straps = s.straps := by
  unfold State.intakeAppend
  (repeat' split) <;> (try rename_i ha) <;> first | (simp; done) | simp [arrive_eq_snd ha]
@[simp] theorem intakeAppend_station (p : Port) (r : RecordNo) (s : State) : (s.intakeAppend p r).station = s.station := by
  unfold State.intakeAppend
  (repeat' split) <;> (try rename_i ha) <;> first | (simp; done) | simp [arrive_eq_snd ha]
@[simp] theorem intakeAppend_entries (p : Port) (r : RecordNo) (s : State) : (s.intakeAppend p r).entries = s.entries := by
  unfold State.intakeAppend
  (repeat' split) <;> (try rename_i ha) <;> first | (simp; done) | simp [arrive_eq_snd ha]
@[simp] theorem intakeAppend_defaults (p : Port) (r : RecordNo) (s : State) : (s.intakeAppend p r).defaults = s.defaults := by
  unfold State.intakeAppend
  (repeat' split) <;> (try rename_i ha) <;> first | (simp; done) | simp [arrive_eq_snd ha]
@[simp] theorem intakeAppend_mem (p : Port) (r : RecordNo) (s : State) : (s.intakeAppend p r).mem = s.mem := by
  unfold State.intakeAppend
  (repeat' split) <;> (try rename_i ha) <;> first | (simp; done) | simp [arrive_eq_snd ha]
@[simp] theorem intakeAppend_ecc (p : Port) (r : RecordNo) (s : State) : (s.intakeAppend p r).ecc = s.ecc := by
  unfold State.intakeAppend
  (repeat' split) <;> (try rename_i ha) <;> first | (simp; done) | simp [arrive_eq_snd ha]
@[simp] theorem intakeAppend_ports (p : Port) (r : RecordNo) (s : State) : (s.intakeAppend p r).ports = s.ports := by
  unfold State.intakeAppend
  (repeat' split) <;> (try rename_i ha) <;> first | (simp; done) | simp [arrive_eq_snd ha]
@[simp] theorem intakeAppend_engine (p : Port) (r : RecordNo) (s : State) : (s.intakeAppend p r).engine = s.engine := by
  unfold State.intakeAppend
  (repeat' split) <;> (try rename_i ha) <;> first | (simp; done) | simp [arrive_eq_snd ha]
@[simp] theorem intakeAppend_claim (p : Port) (r : RecordNo) (s : State) : (s.intakeAppend p r).claim = s.claim := by
  unfold State.intakeAppend
  (repeat' split) <;> (try rename_i ha) <;> first | (simp; done) | simp [arrive_eq_snd ha]
@[simp] theorem intakeAppend_check (p : Port) (r : RecordNo) (s : State) : (s.intakeAppend p r).check = s.check := by
  unfold State.intakeAppend
  (repeat' split) <;> (try rename_i ha) <;> first | (simp; done) | simp [arrive_eq_snd ha]
@[simp] theorem intakeAppend_freeDraws (p : Port) (r : RecordNo) (s : State) : (s.intakeAppend p r).freeDraws = s.freeDraws := by
  unfold State.intakeAppend
  (repeat' split) <;> (try rename_i ha) <;> first | (simp; done) | simp [arrive_eq_snd ha]
@[simp] theorem intakeAppend_pending (p : Port) (r : RecordNo) (s : State) : (s.intakeAppend p r).pending = s.pending := by
  unfold State.intakeAppend
  (repeat' split) <;> (try rename_i ha) <;> first | (simp; done) | simp [arrive_eq_snd ha]

@[simp] theorem placeTarget_timebase (p : Port) (r : RecordNo) (u : EntryUsed) (i : Insertion) (d : DequeNo) (s : State) : (s.placeTarget p r u i d).timebase = s.timebase := by
  unfold State.placeTarget
  (repeat' split) <;> (try rename_i ha) <;> first | (simp; done) | simp [arrive_eq_snd ha]
@[simp] theorem placeTarget_straps (p : Port) (r : RecordNo) (u : EntryUsed) (i : Insertion) (d : DequeNo) (s : State) : (s.placeTarget p r u i d).straps = s.straps := by
  unfold State.placeTarget
  (repeat' split) <;> (try rename_i ha) <;> first | (simp; done) | simp [arrive_eq_snd ha]
@[simp] theorem placeTarget_station (p : Port) (r : RecordNo) (u : EntryUsed) (i : Insertion) (d : DequeNo) (s : State) : (s.placeTarget p r u i d).station = s.station := by
  unfold State.placeTarget
  (repeat' split) <;> (try rename_i ha) <;> first | (simp; done) | simp [arrive_eq_snd ha]
@[simp] theorem placeTarget_entries (p : Port) (r : RecordNo) (u : EntryUsed) (i : Insertion) (d : DequeNo) (s : State) : (s.placeTarget p r u i d).entries = s.entries := by
  unfold State.placeTarget
  (repeat' split) <;> (try rename_i ha) <;> first | (simp; done) | simp [arrive_eq_snd ha]
@[simp] theorem placeTarget_defaults (p : Port) (r : RecordNo) (u : EntryUsed) (i : Insertion) (d : DequeNo) (s : State) : (s.placeTarget p r u i d).defaults = s.defaults := by
  unfold State.placeTarget
  (repeat' split) <;> (try rename_i ha) <;> first | (simp; done) | simp [arrive_eq_snd ha]
@[simp] theorem placeTarget_mem (p : Port) (r : RecordNo) (u : EntryUsed) (i : Insertion) (d : DequeNo) (s : State) : (s.placeTarget p r u i d).mem = s.mem := by
  unfold State.placeTarget
  (repeat' split) <;> (try rename_i ha) <;> first | (simp; done) | simp [arrive_eq_snd ha]
@[simp] theorem placeTarget_ecc (p : Port) (r : RecordNo) (u : EntryUsed) (i : Insertion) (d : DequeNo) (s : State) : (s.placeTarget p r u i d).ecc = s.ecc := by
  unfold State.placeTarget
  (repeat' split) <;> (try rename_i ha) <;> first | (simp; done) | simp [arrive_eq_snd ha]
@[simp] theorem placeTarget_ports (p : Port) (r : RecordNo) (u : EntryUsed) (i : Insertion) (d : DequeNo) (s : State) : (s.placeTarget p r u i d).ports = s.ports := by
  unfold State.placeTarget
  (repeat' split) <;> (try rename_i ha) <;> first | (simp; done) | simp [arrive_eq_snd ha]
@[simp] theorem placeTarget_engine (p : Port) (r : RecordNo) (u : EntryUsed) (i : Insertion) (d : DequeNo) (s : State) : (s.placeTarget p r u i d).engine = s.engine := by
  unfold State.placeTarget
  (repeat' split) <;> (try rename_i ha) <;> first | (simp; done) | simp [arrive_eq_snd ha]
@[simp] theorem placeTarget_claim (p : Port) (r : RecordNo) (u : EntryUsed) (i : Insertion) (d : DequeNo) (s : State) : (s.placeTarget p r u i d).claim = s.claim := by
  unfold State.placeTarget
  (repeat' split) <;> (try rename_i ha) <;> first | (simp; done) | simp [arrive_eq_snd ha]
@[simp] theorem placeTarget_check (p : Port) (r : RecordNo) (u : EntryUsed) (i : Insertion) (d : DequeNo) (s : State) : (s.placeTarget p r u i d).check = s.check := by
  unfold State.placeTarget
  (repeat' split) <;> (try rename_i ha) <;> first | (simp; done) | simp [arrive_eq_snd ha]
@[simp] theorem placeTarget_freeDraws (p : Port) (r : RecordNo) (u : EntryUsed) (i : Insertion) (d : DequeNo) (s : State) : (s.placeTarget p r u i d).freeDraws = s.freeDraws := by
  unfold State.placeTarget
  (repeat' split) <;> (try rename_i ha) <;> first | (simp; done) | simp [arrive_eq_snd ha]
@[simp] theorem placeTarget_pending (p : Port) (r : RecordNo) (u : EntryUsed) (i : Insertion) (d : DequeNo) (s : State) : (s.placeTarget p r u i d).pending = s.pending := by
  unfold State.placeTarget
  (repeat' split) <;> (try rename_i ha) <;> first | (simp; done) | simp [arrive_eq_snd ha]

@[simp] theorem applyHopRule_timebase (r : RecordNo) (x : HopRule) (s : State) : (s.applyHopRule r x).timebase = s.timebase := by
  unfold State.applyHopRule; (repeat' split) <;> simp
@[simp] theorem applyHopRule_straps (r : RecordNo) (x : HopRule) (s : State) : (s.applyHopRule r x).straps = s.straps := by
  unfold State.applyHopRule; (repeat' split) <;> simp
@[simp] theorem applyHopRule_station (r : RecordNo) (x : HopRule) (s : State) : (s.applyHopRule r x).station = s.station := by
  unfold State.applyHopRule; (repeat' split) <;> simp
@[simp] theorem applyHopRule_entries (r : RecordNo) (x : HopRule) (s : State) : (s.applyHopRule r x).entries = s.entries := by
  unfold State.applyHopRule; (repeat' split) <;> simp
@[simp] theorem applyHopRule_defaults (r : RecordNo) (x : HopRule) (s : State) : (s.applyHopRule r x).defaults = s.defaults := by
  unfold State.applyHopRule; (repeat' split) <;> simp
@[simp] theorem applyHopRule_deques (r : RecordNo) (x : HopRule) (s : State) : (s.applyHopRule r x).deques = s.deques := by
  unfold State.applyHopRule; (repeat' split) <;> simp
@[simp] theorem applyHopRule_mem (r : RecordNo) (x : HopRule) (s : State) : (s.applyHopRule r x).mem = s.mem := by
  unfold State.applyHopRule; (repeat' split) <;> simp
@[simp] theorem applyHopRule_ecc (r : RecordNo) (x : HopRule) (s : State) : (s.applyHopRule r x).ecc = s.ecc := by
  unfold State.applyHopRule; (repeat' split) <;> simp
@[simp] theorem applyHopRule_freeCells (r : RecordNo) (x : HopRule) (s : State) : (s.applyHopRule r x).freeCells = s.freeCells := by
  unfold State.applyHopRule; (repeat' split) <;> simp
@[simp] theorem applyHopRule_freeRecords (r : RecordNo) (x : HopRule) (s : State) : (s.applyHopRule r x).freeRecords = s.freeRecords := by
  unfold State.applyHopRule; (repeat' split) <;> simp
@[simp] theorem applyHopRule_ports (r : RecordNo) (x : HopRule) (s : State) : (s.applyHopRule r x).ports = s.ports := by
  unfold State.applyHopRule; (repeat' split) <;> simp
@[simp] theorem applyHopRule_engine (r : RecordNo) (x : HopRule) (s : State) : (s.applyHopRule r x).engine = s.engine := by
  unfold State.applyHopRule; (repeat' split) <;> simp
@[simp] theorem applyHopRule_claim (r : RecordNo) (x : HopRule) (s : State) : (s.applyHopRule r x).claim = s.claim := by
  unfold State.applyHopRule; (repeat' split) <;> simp
@[simp] theorem applyHopRule_exc (r : RecordNo) (x : HopRule) (s : State) : (s.applyHopRule r x).exc = s.exc := by
  unfold State.applyHopRule; (repeat' split) <;> simp
@[simp] theorem applyHopRule_check (r : RecordNo) (x : HopRule) (s : State) : (s.applyHopRule r x).check = s.check := by
  unfold State.applyHopRule; (repeat' split) <;> simp
@[simp] theorem applyHopRule_follow (r : RecordNo) (x : HopRule) (s : State) : (s.applyHopRule r x).follow = s.follow := by
  unfold State.applyHopRule; (repeat' split) <;> simp
@[simp] theorem applyHopRule_freeDraws (r : RecordNo) (x : HopRule) (s : State) : (s.applyHopRule r x).freeDraws = s.freeDraws := by
  unfold State.applyHopRule; (repeat' split) <;> simp
@[simp] theorem applyHopRule_pending (r : RecordNo) (x : HopRule) (s : State) : (s.applyHopRule r x).pending = s.pending := by
  unfold State.applyHopRule; (repeat' split) <;> simp

@[simp] theorem admitNext_timebase (p : Port) (a : Admitting) (n : AdmitStep) (s : State) : (s.admitNext p a n).timebase = s.timebase := by
  simp [State.admitNext]
@[simp] theorem admitNext_straps (p : Port) (a : Admitting) (n : AdmitStep) (s : State) : (s.admitNext p a n).straps = s.straps := by
  simp [State.admitNext]
@[simp] theorem admitNext_station (p : Port) (a : Admitting) (n : AdmitStep) (s : State) : (s.admitNext p a n).station = s.station := by
  simp [State.admitNext]
@[simp] theorem admitNext_entries (p : Port) (a : Admitting) (n : AdmitStep) (s : State) : (s.admitNext p a n).entries = s.entries := by
  simp [State.admitNext]
@[simp] theorem admitNext_defaults (p : Port) (a : Admitting) (n : AdmitStep) (s : State) : (s.admitNext p a n).defaults = s.defaults := by
  simp [State.admitNext]
@[simp] theorem admitNext_deques (p : Port) (a : Admitting) (n : AdmitStep) (s : State) : (s.admitNext p a n).deques = s.deques := by
  simp [State.admitNext]
@[simp] theorem admitNext_mem (p : Port) (a : Admitting) (n : AdmitStep) (s : State) : (s.admitNext p a n).mem = s.mem := by
  simp [State.admitNext]
@[simp] theorem admitNext_ecc (p : Port) (a : Admitting) (n : AdmitStep) (s : State) : (s.admitNext p a n).ecc = s.ecc := by
  simp [State.admitNext]
@[simp] theorem admitNext_freeCells (p : Port) (a : Admitting) (n : AdmitStep) (s : State) : (s.admitNext p a n).freeCells = s.freeCells := by
  simp [State.admitNext]
@[simp] theorem admitNext_freeRecords (p : Port) (a : Admitting) (n : AdmitStep) (s : State) : (s.admitNext p a n).freeRecords = s.freeRecords := by
  simp [State.admitNext]
@[simp] theorem admitNext_records (p : Port) (a : Admitting) (n : AdmitStep) (s : State) : (s.admitNext p a n).records = s.records := by
  simp [State.admitNext]
@[simp] theorem admitNext_engine (p : Port) (a : Admitting) (n : AdmitStep) (s : State) : (s.admitNext p a n).engine = s.engine := by
  simp [State.admitNext]
@[simp] theorem admitNext_claim (p : Port) (a : Admitting) (n : AdmitStep) (s : State) : (s.admitNext p a n).claim = s.claim := by
  simp [State.admitNext]
@[simp] theorem admitNext_exc (p : Port) (a : Admitting) (n : AdmitStep) (s : State) : (s.admitNext p a n).exc = s.exc := by
  simp [State.admitNext]
@[simp] theorem admitNext_check (p : Port) (a : Admitting) (n : AdmitStep) (s : State) : (s.admitNext p a n).check = s.check := by
  simp [State.admitNext]
@[simp] theorem admitNext_follow (p : Port) (a : Admitting) (n : AdmitStep) (s : State) : (s.admitNext p a n).follow = s.follow := by
  simp [State.admitNext]
@[simp] theorem admitNext_freeDraws (p : Port) (a : Admitting) (n : AdmitStep) (s : State) : (s.admitNext p a n).freeDraws = s.freeDraws := by
  simp [State.admitNext]
@[simp] theorem admitNext_pending (p : Port) (a : Admitting) (n : AdmitStep) (s : State) : (s.admitNext p a n).pending = s.pending := by
  simp [State.admitNext]

@[simp] theorem appendStep_timebase (p : Port) (a : Admitting) (s : State) : (s.appendStep p a).timebase = s.timebase := by
  simp [State.appendStep]
@[simp] theorem appendStep_straps (p : Port) (a : Admitting) (s : State) : (s.appendStep p a).straps = s.straps := by
  simp [State.appendStep]
@[simp] theorem appendStep_station (p : Port) (a : Admitting) (s : State) : (s.appendStep p a).station = s.station := by
  simp [State.appendStep]
@[simp] theorem appendStep_entries (p : Port) (a : Admitting) (s : State) : (s.appendStep p a).entries = s.entries := by
  simp [State.appendStep]
@[simp] theorem appendStep_defaults (p : Port) (a : Admitting) (s : State) : (s.appendStep p a).defaults = s.defaults := by
  simp [State.appendStep]
@[simp] theorem appendStep_mem (p : Port) (a : Admitting) (s : State) : (s.appendStep p a).mem = s.mem := by
  simp [State.appendStep]
@[simp] theorem appendStep_ecc (p : Port) (a : Admitting) (s : State) : (s.appendStep p a).ecc = s.ecc := by
  simp [State.appendStep]
@[simp] theorem appendStep_engine (p : Port) (a : Admitting) (s : State) : (s.appendStep p a).engine = s.engine := by
  simp [State.appendStep]
@[simp] theorem appendStep_claim (p : Port) (a : Admitting) (s : State) : (s.appendStep p a).claim = s.claim := by
  simp [State.appendStep]
@[simp] theorem appendStep_check (p : Port) (a : Admitting) (s : State) : (s.appendStep p a).check = s.check := by
  simp [State.appendStep]
@[simp] theorem appendStep_freeDraws (p : Port) (a : Admitting) (s : State) : (s.appendStep p a).freeDraws = s.freeDraws := by
  simp [State.appendStep]
@[simp] theorem appendStep_pending (p : Port) (a : Admitting) (s : State) : (s.appendStep p a).pending = s.pending := by
  simp [State.appendStep]

@[simp] theorem misdirectStep_timebase (p : Port) (a : Admitting) (s : State) : (s.misdirectStep p a).timebase = s.timebase := by
  simp [State.misdirectStep]
@[simp] theorem misdirectStep_straps (p : Port) (a : Admitting) (s : State) : (s.misdirectStep p a).straps = s.straps := by
  simp [State.misdirectStep]
@[simp] theorem misdirectStep_station (p : Port) (a : Admitting) (s : State) : (s.misdirectStep p a).station = s.station := by
  simp [State.misdirectStep]
@[simp] theorem misdirectStep_entries (p : Port) (a : Admitting) (s : State) : (s.misdirectStep p a).entries = s.entries := by
  simp [State.misdirectStep]
@[simp] theorem misdirectStep_defaults (p : Port) (a : Admitting) (s : State) : (s.misdirectStep p a).defaults = s.defaults := by
  simp [State.misdirectStep]
@[simp] theorem misdirectStep_deques (p : Port) (a : Admitting) (s : State) : (s.misdirectStep p a).deques = s.deques := by
  simp [State.misdirectStep]
@[simp] theorem misdirectStep_mem (p : Port) (a : Admitting) (s : State) : (s.misdirectStep p a).mem = s.mem := by
  simp [State.misdirectStep]
@[simp] theorem misdirectStep_ecc (p : Port) (a : Admitting) (s : State) : (s.misdirectStep p a).ecc = s.ecc := by
  simp [State.misdirectStep]
@[simp] theorem misdirectStep_freeCells (p : Port) (a : Admitting) (s : State) : (s.misdirectStep p a).freeCells = s.freeCells := by
  simp [State.misdirectStep]
@[simp] theorem misdirectStep_freeRecords (p : Port) (a : Admitting) (s : State) : (s.misdirectStep p a).freeRecords = s.freeRecords := by
  simp [State.misdirectStep]
@[simp] theorem misdirectStep_records (p : Port) (a : Admitting) (s : State) : (s.misdirectStep p a).records = s.records := by
  simp [State.misdirectStep]
@[simp] theorem misdirectStep_engine (p : Port) (a : Admitting) (s : State) : (s.misdirectStep p a).engine = s.engine := by
  simp [State.misdirectStep]
@[simp] theorem misdirectStep_claim (p : Port) (a : Admitting) (s : State) : (s.misdirectStep p a).claim = s.claim := by
  simp [State.misdirectStep]
@[simp] theorem misdirectStep_check (p : Port) (a : Admitting) (s : State) : (s.misdirectStep p a).check = s.check := by
  simp [State.misdirectStep]
@[simp] theorem misdirectStep_freeDraws (p : Port) (a : Admitting) (s : State) : (s.misdirectStep p a).freeDraws = s.freeDraws := by
  simp [State.misdirectStep]
@[simp] theorem misdirectStep_pending (p : Port) (a : Admitting) (s : State) : (s.misdirectStep p a).pending = s.pending := by
  simp [State.misdirectStep]

@[simp] theorem hopStep_timebase (p : Port) (a : Admitting) (h : Header) (s : State) : (s.hopStep p a h).timebase = s.timebase := by
  unfold State.hopStep; (repeat' split) <;> simp
@[simp] theorem hopStep_straps (p : Port) (a : Admitting) (h : Header) (s : State) : (s.hopStep p a h).straps = s.straps := by
  unfold State.hopStep; (repeat' split) <;> simp
@[simp] theorem hopStep_station (p : Port) (a : Admitting) (h : Header) (s : State) : (s.hopStep p a h).station = s.station := by
  unfold State.hopStep; (repeat' split) <;> simp
@[simp] theorem hopStep_entries (p : Port) (a : Admitting) (h : Header) (s : State) : (s.hopStep p a h).entries = s.entries := by
  unfold State.hopStep; (repeat' split) <;> simp
@[simp] theorem hopStep_defaults (p : Port) (a : Admitting) (h : Header) (s : State) : (s.hopStep p a h).defaults = s.defaults := by
  unfold State.hopStep; (repeat' split) <;> simp
@[simp] theorem hopStep_deques (p : Port) (a : Admitting) (h : Header) (s : State) : (s.hopStep p a h).deques = s.deques := by
  unfold State.hopStep; (repeat' split) <;> simp
@[simp] theorem hopStep_mem (p : Port) (a : Admitting) (h : Header) (s : State) : (s.hopStep p a h).mem = s.mem := by
  unfold State.hopStep; (repeat' split) <;> simp
@[simp] theorem hopStep_ecc (p : Port) (a : Admitting) (h : Header) (s : State) : (s.hopStep p a h).ecc = s.ecc := by
  unfold State.hopStep; (repeat' split) <;> simp
@[simp] theorem hopStep_freeCells (p : Port) (a : Admitting) (h : Header) (s : State) : (s.hopStep p a h).freeCells = s.freeCells := by
  unfold State.hopStep; (repeat' split) <;> simp
@[simp] theorem hopStep_freeRecords (p : Port) (a : Admitting) (h : Header) (s : State) : (s.hopStep p a h).freeRecords = s.freeRecords := by
  unfold State.hopStep; (repeat' split) <;> simp
@[simp] theorem hopStep_records (p : Port) (a : Admitting) (h : Header) (s : State) : (s.hopStep p a h).records = s.records := by
  unfold State.hopStep; (repeat' split) <;> simp
@[simp] theorem hopStep_engine (p : Port) (a : Admitting) (h : Header) (s : State) : (s.hopStep p a h).engine = s.engine := by
  unfold State.hopStep; (repeat' split) <;> simp
@[simp] theorem hopStep_claim (p : Port) (a : Admitting) (h : Header) (s : State) : (s.hopStep p a h).claim = s.claim := by
  unfold State.hopStep; (repeat' split) <;> simp
@[simp] theorem hopStep_check (p : Port) (a : Admitting) (h : Header) (s : State) : (s.hopStep p a h).check = s.check := by
  unfold State.hopStep; (repeat' split) <;> simp
@[simp] theorem hopStep_freeDraws (p : Port) (a : Admitting) (h : Header) (s : State) : (s.hopStep p a h).freeDraws = s.freeDraws := by
  unfold State.hopStep; (repeat' split) <;> simp
@[simp] theorem hopStep_pending (p : Port) (a : Admitting) (h : Header) (s : State) : (s.hopStep p a h).pending = s.pending := by
  unfold State.hopStep; (repeat' split) <;> simp

@[simp] theorem lookupStep_timebase (p : Port) (a : Admitting) (h : Header) (s : State) : (s.lookupStep p a h).timebase = s.timebase := by
  simp [State.lookupStep]
@[simp] theorem lookupStep_straps (p : Port) (a : Admitting) (h : Header) (s : State) : (s.lookupStep p a h).straps = s.straps := by
  simp [State.lookupStep]
@[simp] theorem lookupStep_station (p : Port) (a : Admitting) (h : Header) (s : State) : (s.lookupStep p a h).station = s.station := by
  simp [State.lookupStep]
@[simp] theorem lookupStep_defaults (p : Port) (a : Admitting) (h : Header) (s : State) : (s.lookupStep p a h).defaults = s.defaults := by
  simp [State.lookupStep]
@[simp] theorem lookupStep_deques (p : Port) (a : Admitting) (h : Header) (s : State) : (s.lookupStep p a h).deques = s.deques := by
  simp [State.lookupStep]
@[simp] theorem lookupStep_mem (p : Port) (a : Admitting) (h : Header) (s : State) : (s.lookupStep p a h).mem = s.mem := by
  simp [State.lookupStep]
@[simp] theorem lookupStep_ecc (p : Port) (a : Admitting) (h : Header) (s : State) : (s.lookupStep p a h).ecc = s.ecc := by
  simp [State.lookupStep]
@[simp] theorem lookupStep_freeCells (p : Port) (a : Admitting) (h : Header) (s : State) : (s.lookupStep p a h).freeCells = s.freeCells := by
  simp [State.lookupStep]
@[simp] theorem lookupStep_freeRecords (p : Port) (a : Admitting) (h : Header) (s : State) : (s.lookupStep p a h).freeRecords = s.freeRecords := by
  simp [State.lookupStep]
@[simp] theorem lookupStep_records (p : Port) (a : Admitting) (h : Header) (s : State) : (s.lookupStep p a h).records = s.records := by
  simp [State.lookupStep]
@[simp] theorem lookupStep_engine (p : Port) (a : Admitting) (h : Header) (s : State) : (s.lookupStep p a h).engine = s.engine := by
  simp [State.lookupStep]
@[simp] theorem lookupStep_claim (p : Port) (a : Admitting) (h : Header) (s : State) : (s.lookupStep p a h).claim = s.claim := by
  simp [State.lookupStep]
@[simp] theorem lookupStep_freeDraws (p : Port) (a : Admitting) (h : Header) (s : State) : (s.lookupStep p a h).freeDraws = s.freeDraws := by
  simp [State.lookupStep]
@[simp] theorem lookupStep_pending (p : Port) (a : Admitting) (h : Header) (s : State) : (s.lookupStep p a h).pending = s.pending := by
  simp [State.lookupStep]

@[simp] theorem actStep_timebase (p : Port) (a : Admitting) (x : LookupResult) (s : State) : (s.actStep p a x).timebase = s.timebase := by
  unfold State.actStep; (repeat' split) <;> simp
@[simp] theorem actStep_straps (p : Port) (a : Admitting) (x : LookupResult) (s : State) : (s.actStep p a x).straps = s.straps := by
  unfold State.actStep; (repeat' split) <;> simp
@[simp] theorem actStep_station (p : Port) (a : Admitting) (x : LookupResult) (s : State) : (s.actStep p a x).station = s.station := by
  unfold State.actStep; (repeat' split) <;> simp
@[simp] theorem actStep_entries (p : Port) (a : Admitting) (x : LookupResult) (s : State) : (s.actStep p a x).entries = s.entries := by
  unfold State.actStep; (repeat' split) <;> simp
@[simp] theorem actStep_defaults (p : Port) (a : Admitting) (x : LookupResult) (s : State) : (s.actStep p a x).defaults = s.defaults := by
  unfold State.actStep; (repeat' split) <;> simp
@[simp] theorem actStep_deques (p : Port) (a : Admitting) (x : LookupResult) (s : State) : (s.actStep p a x).deques = s.deques := by
  unfold State.actStep; (repeat' split) <;> simp
@[simp] theorem actStep_mem (p : Port) (a : Admitting) (x : LookupResult) (s : State) : (s.actStep p a x).mem = s.mem := by
  unfold State.actStep; (repeat' split) <;> simp
@[simp] theorem actStep_ecc (p : Port) (a : Admitting) (x : LookupResult) (s : State) : (s.actStep p a x).ecc = s.ecc := by
  unfold State.actStep; (repeat' split) <;> simp
@[simp] theorem actStep_freeCells (p : Port) (a : Admitting) (x : LookupResult) (s : State) : (s.actStep p a x).freeCells = s.freeCells := by
  unfold State.actStep; (repeat' split) <;> simp
@[simp] theorem actStep_freeRecords (p : Port) (a : Admitting) (x : LookupResult) (s : State) : (s.actStep p a x).freeRecords = s.freeRecords := by
  unfold State.actStep; (repeat' split) <;> simp
@[simp] theorem actStep_engine (p : Port) (a : Admitting) (x : LookupResult) (s : State) : (s.actStep p a x).engine = s.engine := by
  unfold State.actStep; (repeat' split) <;> simp
@[simp] theorem actStep_claim (p : Port) (a : Admitting) (x : LookupResult) (s : State) : (s.actStep p a x).claim = s.claim := by
  unfold State.actStep; (repeat' split) <;> simp
@[simp] theorem actStep_check (p : Port) (a : Admitting) (x : LookupResult) (s : State) : (s.actStep p a x).check = s.check := by
  unfold State.actStep; (repeat' split) <;> simp
@[simp] theorem actStep_freeDraws (p : Port) (a : Admitting) (x : LookupResult) (s : State) : (s.actStep p a x).freeDraws = s.freeDraws := by
  unfold State.actStep; (repeat' split) <;> simp
@[simp] theorem actStep_pending (p : Port) (a : Admitting) (x : LookupResult) (s : State) : (s.actStep p a x).pending = s.pending := by
  unfold State.actStep; (repeat' split) <;> simp

@[simp] theorem placeStep_timebase (p : Port) (a : Admitting) (x : LookupResult) (k : Nat) (s : State) : (s.placeStep p a x k).timebase = s.timebase := by
  simp only [State.placeStep]; (repeat' split) <;> simp
@[simp] theorem placeStep_straps (p : Port) (a : Admitting) (x : LookupResult) (k : Nat) (s : State) : (s.placeStep p a x k).straps = s.straps := by
  simp only [State.placeStep]; (repeat' split) <;> simp
@[simp] theorem placeStep_station (p : Port) (a : Admitting) (x : LookupResult) (k : Nat) (s : State) : (s.placeStep p a x k).station = s.station := by
  simp only [State.placeStep]; (repeat' split) <;> simp
@[simp] theorem placeStep_entries (p : Port) (a : Admitting) (x : LookupResult) (k : Nat) (s : State) : (s.placeStep p a x k).entries = s.entries := by
  simp only [State.placeStep]; (repeat' split) <;> simp
@[simp] theorem placeStep_defaults (p : Port) (a : Admitting) (x : LookupResult) (k : Nat) (s : State) : (s.placeStep p a x k).defaults = s.defaults := by
  simp only [State.placeStep]; (repeat' split) <;> simp
@[simp] theorem placeStep_mem (p : Port) (a : Admitting) (x : LookupResult) (k : Nat) (s : State) : (s.placeStep p a x k).mem = s.mem := by
  simp only [State.placeStep]; (repeat' split) <;> simp
@[simp] theorem placeStep_ecc (p : Port) (a : Admitting) (x : LookupResult) (k : Nat) (s : State) : (s.placeStep p a x k).ecc = s.ecc := by
  simp only [State.placeStep]; (repeat' split) <;> simp
@[simp] theorem placeStep_engine (p : Port) (a : Admitting) (x : LookupResult) (k : Nat) (s : State) : (s.placeStep p a x k).engine = s.engine := by
  simp only [State.placeStep]; (repeat' split) <;> simp
@[simp] theorem placeStep_claim (p : Port) (a : Admitting) (x : LookupResult) (k : Nat) (s : State) : (s.placeStep p a x k).claim = s.claim := by
  simp only [State.placeStep]; (repeat' split) <;> simp
@[simp] theorem placeStep_check (p : Port) (a : Admitting) (x : LookupResult) (k : Nat) (s : State) : (s.placeStep p a x k).check = s.check := by
  simp only [State.placeStep]; (repeat' split) <;> simp
@[simp] theorem placeStep_freeDraws (p : Port) (a : Admitting) (x : LookupResult) (k : Nat) (s : State) : (s.placeStep p a x k).freeDraws = s.freeDraws := by
  simp only [State.placeStep]; (repeat' split) <;> simp
@[simp] theorem placeStep_pending (p : Port) (a : Admitting) (x : LookupResult) (k : Nat) (s : State) : (s.placeStep p a x k).pending = s.pending := by
  simp only [State.placeStep]; (repeat' split) <;> simp

@[simp] theorem admitHeld_timebase (p : Port) (a : Admitting) (h : Header) (s : State) : (s.admitHeld p a h).timebase = s.timebase := by
  unfold State.admitHeld; (repeat' split) <;> simp
@[simp] theorem admitHeld_straps (p : Port) (a : Admitting) (h : Header) (s : State) : (s.admitHeld p a h).straps = s.straps := by
  unfold State.admitHeld; (repeat' split) <;> simp
@[simp] theorem admitHeld_station (p : Port) (a : Admitting) (h : Header) (s : State) : (s.admitHeld p a h).station = s.station := by
  unfold State.admitHeld; (repeat' split) <;> simp
@[simp] theorem admitHeld_defaults (p : Port) (a : Admitting) (h : Header) (s : State) : (s.admitHeld p a h).defaults = s.defaults := by
  unfold State.admitHeld; (repeat' split) <;> simp
@[simp] theorem admitHeld_mem (p : Port) (a : Admitting) (h : Header) (s : State) : (s.admitHeld p a h).mem = s.mem := by
  unfold State.admitHeld; (repeat' split) <;> simp
@[simp] theorem admitHeld_ecc (p : Port) (a : Admitting) (h : Header) (s : State) : (s.admitHeld p a h).ecc = s.ecc := by
  unfold State.admitHeld; (repeat' split) <;> simp
@[simp] theorem admitHeld_engine (p : Port) (a : Admitting) (h : Header) (s : State) : (s.admitHeld p a h).engine = s.engine := by
  unfold State.admitHeld; (repeat' split) <;> simp
@[simp] theorem admitHeld_claim (p : Port) (a : Admitting) (h : Header) (s : State) : (s.admitHeld p a h).claim = s.claim := by
  unfold State.admitHeld; (repeat' split) <;> simp
@[simp] theorem admitHeld_freeDraws (p : Port) (a : Admitting) (h : Header) (s : State) : (s.admitHeld p a h).freeDraws = s.freeDraws := by
  unfold State.admitHeld; (repeat' split) <;> simp
@[simp] theorem admitHeld_pending (p : Port) (a : Admitting) (h : Header) (s : State) : (s.admitHeld p a h).pending = s.pending := by
  unfold State.admitHeld; (repeat' split) <;> simp

@[simp] theorem admitStep_timebase (p : Port) (s : State) : (s.admitStep p).timebase = s.timebase := by
  unfold State.admitStep; (repeat' split) <;> simp
@[simp] theorem admitStep_straps (p : Port) (s : State) : (s.admitStep p).straps = s.straps := by
  unfold State.admitStep; (repeat' split) <;> simp
@[simp] theorem admitStep_station (p : Port) (s : State) : (s.admitStep p).station = s.station := by
  unfold State.admitStep; (repeat' split) <;> simp
@[simp] theorem admitStep_defaults (p : Port) (s : State) : (s.admitStep p).defaults = s.defaults := by
  unfold State.admitStep; (repeat' split) <;> simp
@[simp] theorem admitStep_mem (p : Port) (s : State) : (s.admitStep p).mem = s.mem := by
  unfold State.admitStep; (repeat' split) <;> simp
@[simp] theorem admitStep_ecc (p : Port) (s : State) : (s.admitStep p).ecc = s.ecc := by
  unfold State.admitStep; (repeat' split) <;> simp
@[simp] theorem admitStep_engine (p : Port) (s : State) : (s.admitStep p).engine = s.engine := by
  unfold State.admitStep; (repeat' split) <;> simp
@[simp] theorem admitStep_claim (p : Port) (s : State) : (s.admitStep p).claim = s.claim := by
  unfold State.admitStep; (repeat' split) <;> simp
@[simp] theorem admitStep_freeDraws (p : Port) (s : State) : (s.admitStep p).freeDraws = s.freeDraws := by
  unfold State.admitStep; (repeat' split) <;> simp
@[simp] theorem admitStep_pending (p : Port) (s : State) : (s.admitStep p).pending = s.pending := by
  unfold State.admitStep; (repeat' split) <;> simp

/-- All that `admitStep` may change. -/
theorem admitStep_shape (p : Port) (s : State) :
    s.admitStep p = { s with
      entries := (s.admitStep p).entries, deques := (s.admitStep p).deques,
      freeCells := (s.admitStep p).freeCells, freeRecords := (s.admitStep p).freeRecords,
      records := (s.admitStep p).records, ports := (s.admitStep p).ports,
      exc := (s.admitStep p).exc, check := (s.admitStep p).check,
      follow := (s.admitStep p).follow } := by
  ext1 <;> simp


/-- With the unit IDLE there is no step to make (R68). -/
theorem admitStep_of_idle {p : Port} {s : State} (h : (s.port p).admission = .idle) : s.admitStep p = s := by
  simp [State.admitStep, h]

/-- The step of an ADMITTING unit whose frame is HELD. -/
theorem admitStep_of_held {p : Port} {s : State} {a : Admitting} {h : HeldFrame}
    (ha : (s.port p).admission = .admitting a) (hr : s.record a.frame = .held h) :
    s.admitStep p = s.admitHeld p a h.header := by
  simp [State.admitStep, State.held?, ha, hr]

/-! ## The receiver -/

@[simp] theorem beginFrame_timebase (p : Port) (s : State) : (s.beginFrame p).timebase = s.timebase := by
  unfold State.beginFrame; (repeat' split) <;> simp
@[simp] theorem beginFrame_straps (p : Port) (s : State) : (s.beginFrame p).straps = s.straps := by
  unfold State.beginFrame; (repeat' split) <;> simp
@[simp] theorem beginFrame_station (p : Port) (s : State) : (s.beginFrame p).station = s.station := by
  unfold State.beginFrame; (repeat' split) <;> simp
@[simp] theorem beginFrame_entries (p : Port) (s : State) : (s.beginFrame p).entries = s.entries := by
  unfold State.beginFrame; (repeat' split) <;> simp
@[simp] theorem beginFrame_defaults (p : Port) (s : State) : (s.beginFrame p).defaults = s.defaults := by
  unfold State.beginFrame; (repeat' split) <;> simp
@[simp] theorem beginFrame_deques (p : Port) (s : State) : (s.beginFrame p).deques = s.deques := by
  unfold State.beginFrame; (repeat' split) <;> simp
@[simp] theorem beginFrame_mem (p : Port) (s : State) : (s.beginFrame p).mem = s.mem := by
  unfold State.beginFrame; (repeat' split) <;> simp
@[simp] theorem beginFrame_ecc (p : Port) (s : State) : (s.beginFrame p).ecc = s.ecc := by
  unfold State.beginFrame; (repeat' split) <;> simp
@[simp] theorem beginFrame_freeCells (p : Port) (s : State) : (s.beginFrame p).freeCells = s.freeCells := by
  unfold State.beginFrame; (repeat' split) <;> simp
@[simp] theorem beginFrame_engine (p : Port) (s : State) : (s.beginFrame p).engine = s.engine := by
  unfold State.beginFrame; (repeat' split) <;> simp
@[simp] theorem beginFrame_claim (p : Port) (s : State) : (s.beginFrame p).claim = s.claim := by
  unfold State.beginFrame; (repeat' split) <;> simp
@[simp] theorem beginFrame_check (p : Port) (s : State) : (s.beginFrame p).check = s.check := by
  unfold State.beginFrame; (repeat' split) <;> simp
@[simp] theorem beginFrame_freeDraws (p : Port) (s : State) : (s.beginFrame p).freeDraws = s.freeDraws := by
  unfold State.beginFrame; (repeat' split) <;> simp
@[simp] theorem beginFrame_pending (p : Port) (s : State) : (s.beginFrame p).pending = s.pending := by
  unfold State.beginFrame; (repeat' split) <;> simp

@[simp] theorem giveUp_timebase (p : Port) (r : RecordNo) (c : ExcCode) (s : State) : (s.giveUp p r c).timebase = s.timebase := by
  simp [State.giveUp]
@[simp] theorem giveUp_straps (p : Port) (r : RecordNo) (c : ExcCode) (s : State) : (s.giveUp p r c).straps = s.straps := by
  simp [State.giveUp]
@[simp] theorem giveUp_station (p : Port) (r : RecordNo) (c : ExcCode) (s : State) : (s.giveUp p r c).station = s.station := by
  simp [State.giveUp]
@[simp] theorem giveUp_entries (p : Port) (r : RecordNo) (c : ExcCode) (s : State) : (s.giveUp p r c).entries = s.entries := by
  simp [State.giveUp]
@[simp] theorem giveUp_defaults (p : Port) (r : RecordNo) (c : ExcCode) (s : State) : (s.giveUp p r c).defaults = s.defaults := by
  simp [State.giveUp]
@[simp] theorem giveUp_deques (p : Port) (r : RecordNo) (c : ExcCode) (s : State) : (s.giveUp p r c).deques = s.deques := by
  simp [State.giveUp]
@[simp] theorem giveUp_mem (p : Port) (r : RecordNo) (c : ExcCode) (s : State) : (s.giveUp p r c).mem = s.mem := by
  simp [State.giveUp]
@[simp] theorem giveUp_ecc (p : Port) (r : RecordNo) (c : ExcCode) (s : State) : (s.giveUp p r c).ecc = s.ecc := by
  simp [State.giveUp]
@[simp] theorem giveUp_engine (p : Port) (r : RecordNo) (c : ExcCode) (s : State) : (s.giveUp p r c).engine = s.engine := by
  simp [State.giveUp]
@[simp] theorem giveUp_claim (p : Port) (r : RecordNo) (c : ExcCode) (s : State) : (s.giveUp p r c).claim = s.claim := by
  simp [State.giveUp]
@[simp] theorem giveUp_check (p : Port) (r : RecordNo) (c : ExcCode) (s : State) : (s.giveUp p r c).check = s.check := by
  simp [State.giveUp]
@[simp] theorem giveUp_freeDraws (p : Port) (r : RecordNo) (c : ExcCode) (s : State) : (s.giveUp p r c).freeDraws = s.freeDraws := by
  simp [State.giveUp]
@[simp] theorem giveUp_pending (p : Port) (r : RecordNo) (c : ExcCode) (s : State) : (s.giveUp p r c).pending = s.pending := by
  simp [State.giveUp]

@[simp] theorem storeByte_timebase (r : RecordNo) (i : Nat) (b : Byte) (s : State) : (s.storeByte r i b).timebase = s.timebase := by
  unfold State.storeByte; (repeat' split) <;> simp
@[simp] theorem storeByte_straps (r : RecordNo) (i : Nat) (b : Byte) (s : State) : (s.storeByte r i b).straps = s.straps := by
  unfold State.storeByte; (repeat' split) <;> simp
@[simp] theorem storeByte_station (r : RecordNo) (i : Nat) (b : Byte) (s : State) : (s.storeByte r i b).station = s.station := by
  unfold State.storeByte; (repeat' split) <;> simp
@[simp] theorem storeByte_entries (r : RecordNo) (i : Nat) (b : Byte) (s : State) : (s.storeByte r i b).entries = s.entries := by
  unfold State.storeByte; (repeat' split) <;> simp
@[simp] theorem storeByte_defaults (r : RecordNo) (i : Nat) (b : Byte) (s : State) : (s.storeByte r i b).defaults = s.defaults := by
  unfold State.storeByte; (repeat' split) <;> simp
@[simp] theorem storeByte_deques (r : RecordNo) (i : Nat) (b : Byte) (s : State) : (s.storeByte r i b).deques = s.deques := by
  unfold State.storeByte; (repeat' split) <;> simp
@[simp] theorem storeByte_freeCells (r : RecordNo) (i : Nat) (b : Byte) (s : State) : (s.storeByte r i b).freeCells = s.freeCells := by
  unfold State.storeByte; (repeat' split) <;> simp
@[simp] theorem storeByte_freeRecords (r : RecordNo) (i : Nat) (b : Byte) (s : State) : (s.storeByte r i b).freeRecords = s.freeRecords := by
  unfold State.storeByte; (repeat' split) <;> simp
@[simp] theorem storeByte_records (r : RecordNo) (i : Nat) (b : Byte) (s : State) : (s.storeByte r i b).records = s.records := by
  unfold State.storeByte; (repeat' split) <;> simp
@[simp] theorem storeByte_ports (r : RecordNo) (i : Nat) (b : Byte) (s : State) : (s.storeByte r i b).ports = s.ports := by
  unfold State.storeByte; (repeat' split) <;> simp
@[simp] theorem storeByte_engine (r : RecordNo) (i : Nat) (b : Byte) (s : State) : (s.storeByte r i b).engine = s.engine := by
  unfold State.storeByte; (repeat' split) <;> simp
@[simp] theorem storeByte_claim (r : RecordNo) (i : Nat) (b : Byte) (s : State) : (s.storeByte r i b).claim = s.claim := by
  unfold State.storeByte; (repeat' split) <;> simp
@[simp] theorem storeByte_exc (r : RecordNo) (i : Nat) (b : Byte) (s : State) : (s.storeByte r i b).exc = s.exc := by
  unfold State.storeByte; (repeat' split) <;> simp
@[simp] theorem storeByte_check (r : RecordNo) (i : Nat) (b : Byte) (s : State) : (s.storeByte r i b).check = s.check := by
  unfold State.storeByte; (repeat' split) <;> simp
@[simp] theorem storeByte_follow (r : RecordNo) (i : Nat) (b : Byte) (s : State) : (s.storeByte r i b).follow = s.follow := by
  unfold State.storeByte; (repeat' split) <;> simp
@[simp] theorem storeByte_freeDraws (r : RecordNo) (i : Nat) (b : Byte) (s : State) : (s.storeByte r i b).freeDraws = s.freeDraws := by
  unfold State.storeByte; (repeat' split) <;> simp
@[simp] theorem storeByte_pending (r : RecordNo) (i : Nat) (b : Byte) (s : State) : (s.storeByte r i b).pending = s.pending := by
  unfold State.storeByte; (repeat' split) <;> simp

/-- A cell granted joins the record's list and leaves the free-cell queue (R56). -/
theorem takeCell_eq {s t : State} {r : RecordNo} (h : s.takeCell r = some t) :
    t = { s with records := t.records, freeCells := t.freeCells } := by
  unfold State.takeCell at h
  (repeat' split at h) <;> cases h
  rfl

@[simp] theorem receiveByte_timebase (p : Port) (x : Reception) (b : Byte) (s : State) : (s.receiveByte p x b).timebase = s.timebase := by
  simp only [State.receiveByte]
  (repeat' split) <;> (try rename_i h) <;> first | (simp; done) | (rw [takeCell_eq h]; simp)
@[simp] theorem receiveByte_straps (p : Port) (x : Reception) (b : Byte) (s : State) : (s.receiveByte p x b).straps = s.straps := by
  simp only [State.receiveByte]
  (repeat' split) <;> (try rename_i h) <;> first | (simp; done) | (rw [takeCell_eq h]; simp)
@[simp] theorem receiveByte_station (p : Port) (x : Reception) (b : Byte) (s : State) : (s.receiveByte p x b).station = s.station := by
  simp only [State.receiveByte]
  (repeat' split) <;> (try rename_i h) <;> first | (simp; done) | (rw [takeCell_eq h]; simp)
@[simp] theorem receiveByte_entries (p : Port) (x : Reception) (b : Byte) (s : State) : (s.receiveByte p x b).entries = s.entries := by
  simp only [State.receiveByte]
  (repeat' split) <;> (try rename_i h) <;> first | (simp; done) | (rw [takeCell_eq h]; simp)
@[simp] theorem receiveByte_defaults (p : Port) (x : Reception) (b : Byte) (s : State) : (s.receiveByte p x b).defaults = s.defaults := by
  simp only [State.receiveByte]
  (repeat' split) <;> (try rename_i h) <;> first | (simp; done) | (rw [takeCell_eq h]; simp)
@[simp] theorem receiveByte_deques (p : Port) (x : Reception) (b : Byte) (s : State) : (s.receiveByte p x b).deques = s.deques := by
  simp only [State.receiveByte]
  (repeat' split) <;> (try rename_i h) <;> first | (simp; done) | (rw [takeCell_eq h]; simp)
@[simp] theorem receiveByte_engine (p : Port) (x : Reception) (b : Byte) (s : State) : (s.receiveByte p x b).engine = s.engine := by
  simp only [State.receiveByte]
  (repeat' split) <;> (try rename_i h) <;> first | (simp; done) | (rw [takeCell_eq h]; simp)
@[simp] theorem receiveByte_claim (p : Port) (x : Reception) (b : Byte) (s : State) : (s.receiveByte p x b).claim = s.claim := by
  simp only [State.receiveByte]
  (repeat' split) <;> (try rename_i h) <;> first | (simp; done) | (rw [takeCell_eq h]; simp)
@[simp] theorem receiveByte_check (p : Port) (x : Reception) (b : Byte) (s : State) : (s.receiveByte p x b).check = s.check := by
  simp only [State.receiveByte]
  (repeat' split) <;> (try rename_i h) <;> first | (simp; done) | (rw [takeCell_eq h]; simp)
@[simp] theorem receiveByte_freeDraws (p : Port) (x : Reception) (b : Byte) (s : State) : (s.receiveByte p x b).freeDraws = s.freeDraws := by
  simp only [State.receiveByte]
  (repeat' split) <;> (try rename_i h) <;> first | (simp; done) | (rw [takeCell_eq h]; simp)
@[simp] theorem receiveByte_pending (p : Port) (x : Reception) (b : Byte) (s : State) : (s.receiveByte p x b).pending = s.pending := by
  simp only [State.receiveByte]
  (repeat' split) <;> (try rename_i h) <;> first | (simp; done) | (rw [takeCell_eq h]; simp)

@[simp] theorem endReception_timebase (p : Port) (x : Reception) (s : State) : (s.endReception p x).timebase = s.timebase := by
  simp only [State.endReception]; (repeat' split) <;> simp
@[simp] theorem endReception_straps (p : Port) (x : Reception) (s : State) : (s.endReception p x).straps = s.straps := by
  simp only [State.endReception]; (repeat' split) <;> simp
@[simp] theorem endReception_station (p : Port) (x : Reception) (s : State) : (s.endReception p x).station = s.station := by
  simp only [State.endReception]; (repeat' split) <;> simp
@[simp] theorem endReception_entries (p : Port) (x : Reception) (s : State) : (s.endReception p x).entries = s.entries := by
  simp only [State.endReception]; (repeat' split) <;> simp
@[simp] theorem endReception_defaults (p : Port) (x : Reception) (s : State) : (s.endReception p x).defaults = s.defaults := by
  simp only [State.endReception]; (repeat' split) <;> simp
@[simp] theorem endReception_deques (p : Port) (x : Reception) (s : State) : (s.endReception p x).deques = s.deques := by
  simp only [State.endReception]; (repeat' split) <;> simp
@[simp] theorem endReception_mem (p : Port) (x : Reception) (s : State) : (s.endReception p x).mem = s.mem := by
  simp only [State.endReception]; (repeat' split) <;> simp
@[simp] theorem endReception_ecc (p : Port) (x : Reception) (s : State) : (s.endReception p x).ecc = s.ecc := by
  simp only [State.endReception]; (repeat' split) <;> simp
@[simp] theorem endReception_engine (p : Port) (x : Reception) (s : State) : (s.endReception p x).engine = s.engine := by
  simp only [State.endReception]; (repeat' split) <;> simp
@[simp] theorem endReception_claim (p : Port) (x : Reception) (s : State) : (s.endReception p x).claim = s.claim := by
  simp only [State.endReception]; (repeat' split) <;> simp
@[simp] theorem endReception_check (p : Port) (x : Reception) (s : State) : (s.endReception p x).check = s.check := by
  simp only [State.endReception]; (repeat' split) <;> simp
@[simp] theorem endReception_freeDraws (p : Port) (x : Reception) (s : State) : (s.endReception p x).freeDraws = s.freeDraws := by
  simp only [State.endReception]; (repeat' split) <;> simp
@[simp] theorem endReception_pending (p : Port) (x : Reception) (s : State) : (s.endReception p x).pending = s.pending := by
  simp only [State.endReception]; (repeat' split) <;> simp

@[simp] theorem takeStart_timebase (p : Port) (s : State) : (s.takeStart p).timebase = s.timebase := by
  unfold State.takeStart; (repeat' split) <;> simp
@[simp] theorem takeStart_straps (p : Port) (s : State) : (s.takeStart p).straps = s.straps := by
  unfold State.takeStart; (repeat' split) <;> simp
@[simp] theorem takeStart_station (p : Port) (s : State) : (s.takeStart p).station = s.station := by
  unfold State.takeStart; (repeat' split) <;> simp
@[simp] theorem takeStart_entries (p : Port) (s : State) : (s.takeStart p).entries = s.entries := by
  unfold State.takeStart; (repeat' split) <;> simp
@[simp] theorem takeStart_defaults (p : Port) (s : State) : (s.takeStart p).defaults = s.defaults := by
  unfold State.takeStart; (repeat' split) <;> simp
@[simp] theorem takeStart_deques (p : Port) (s : State) : (s.takeStart p).deques = s.deques := by
  unfold State.takeStart; (repeat' split) <;> simp
@[simp] theorem takeStart_mem (p : Port) (s : State) : (s.takeStart p).mem = s.mem := by
  unfold State.takeStart; (repeat' split) <;> simp
@[simp] theorem takeStart_ecc (p : Port) (s : State) : (s.takeStart p).ecc = s.ecc := by
  unfold State.takeStart; (repeat' split) <;> simp
@[simp] theorem takeStart_engine (p : Port) (s : State) : (s.takeStart p).engine = s.engine := by
  unfold State.takeStart; (repeat' split) <;> simp
@[simp] theorem takeStart_claim (p : Port) (s : State) : (s.takeStart p).claim = s.claim := by
  unfold State.takeStart; (repeat' split) <;> simp
@[simp] theorem takeStart_check (p : Port) (s : State) : (s.takeStart p).check = s.check := by
  unfold State.takeStart; (repeat' split) <;> simp
@[simp] theorem takeStart_freeDraws (p : Port) (s : State) : (s.takeStart p).freeDraws = s.freeDraws := by
  unfold State.takeStart; (repeat' split) <;> simp
@[simp] theorem takeStart_pending (p : Port) (s : State) : (s.takeStart p).pending = s.pending := by
  unfold State.takeStart; (repeat' split) <;> simp

/-- All that `takeStart` may change. -/
theorem takeStart_shape (p : Port) (s : State) :
    s.takeStart p = { s with
      freeCells := (s.takeStart p).freeCells, freeRecords := (s.takeStart p).freeRecords,
      records := (s.takeStart p).records, ports := (s.takeStart p).ports,
      exc := (s.takeStart p).exc, follow := (s.takeStart p).follow } := by
  ext1 <;> simp

@[simp] theorem takeData_timebase (p : Port) (b : Byte) (s : State) : (s.takeData p b).timebase = s.timebase := by
  unfold State.takeData; (repeat' split) <;> simp
@[simp] theorem takeData_straps (p : Port) (b : Byte) (s : State) : (s.takeData p b).straps = s.straps := by
  unfold State.takeData; (repeat' split) <;> simp
@[simp] theorem takeData_station (p : Port) (b : Byte) (s : State) : (s.takeData p b).station = s.station := by
  unfold State.takeData; (repeat' split) <;> simp
@[simp] theorem takeData_entries (p : Port) (b : Byte) (s : State) : (s.takeData p b).entries = s.entries := by
  unfold State.takeData; (repeat' split) <;> simp
@[simp] theorem takeData_defaults (p : Port) (b : Byte) (s : State) : (s.takeData p b).defaults = s.defaults := by
  unfold State.takeData; (repeat' split) <;> simp
@[simp] theorem takeData_deques (p : Port) (b : Byte) (s : State) : (s.takeData p b).deques = s.deques := by
  unfold State.takeData; (repeat' split) <;> simp
@[simp] theorem takeData_engine (p : Port) (b : Byte) (s : State) : (s.takeData p b).engine = s.engine := by
  unfold State.takeData; (repeat' split) <;> simp
@[simp] theorem takeData_claim (p : Port) (b : Byte) (s : State) : (s.takeData p b).claim = s.claim := by
  unfold State.takeData; (repeat' split) <;> simp
@[simp] theorem takeData_check (p : Port) (b : Byte) (s : State) : (s.takeData p b).check = s.check := by
  unfold State.takeData; (repeat' split) <;> simp
@[simp] theorem takeData_freeDraws (p : Port) (b : Byte) (s : State) : (s.takeData p b).freeDraws = s.freeDraws := by
  unfold State.takeData; (repeat' split) <;> simp
@[simp] theorem takeData_pending (p : Port) (b : Byte) (s : State) : (s.takeData p b).pending = s.pending := by
  unfold State.takeData; (repeat' split) <;> simp

/-- All that `takeData` may change. -/
theorem takeData_shape (p : Port) (b : Byte) (s : State) :
    s.takeData p b = { s with
      mem := (s.takeData p b).mem, ecc := (s.takeData p b).ecc,
      freeCells := (s.takeData p b).freeCells, freeRecords := (s.takeData p b).freeRecords,
      records := (s.takeData p b).records, ports := (s.takeData p b).ports,
      exc := (s.takeData p b).exc, follow := (s.takeData p b).follow } := by
  ext1 <;> simp

@[simp] theorem takeEnd_timebase (p : Port) (s : State) : (s.takeEnd p).timebase = s.timebase := by
  unfold State.takeEnd; (repeat' split) <;> simp
@[simp] theorem takeEnd_straps (p : Port) (s : State) : (s.takeEnd p).straps = s.straps := by
  unfold State.takeEnd; (repeat' split) <;> simp
@[simp] theorem takeEnd_station (p : Port) (s : State) : (s.takeEnd p).station = s.station := by
  unfold State.takeEnd; (repeat' split) <;> simp
@[simp] theorem takeEnd_entries (p : Port) (s : State) : (s.takeEnd p).entries = s.entries := by
  unfold State.takeEnd; (repeat' split) <;> simp
@[simp] theorem takeEnd_defaults (p : Port) (s : State) : (s.takeEnd p).defaults = s.defaults := by
  unfold State.takeEnd; (repeat' split) <;> simp
@[simp] theorem takeEnd_deques (p : Port) (s : State) : (s.takeEnd p).deques = s.deques := by
  unfold State.takeEnd; (repeat' split) <;> simp
@[simp] theorem takeEnd_mem (p : Port) (s : State) : (s.takeEnd p).mem = s.mem := by
  unfold State.takeEnd; (repeat' split) <;> simp
@[simp] theorem takeEnd_ecc (p : Port) (s : State) : (s.takeEnd p).ecc = s.ecc := by
  unfold State.takeEnd; (repeat' split) <;> simp
@[simp] theorem takeEnd_engine (p : Port) (s : State) : (s.takeEnd p).engine = s.engine := by
  unfold State.takeEnd; (repeat' split) <;> simp
@[simp] theorem takeEnd_claim (p : Port) (s : State) : (s.takeEnd p).claim = s.claim := by
  unfold State.takeEnd; (repeat' split) <;> simp
@[simp] theorem takeEnd_check (p : Port) (s : State) : (s.takeEnd p).check = s.check := by
  unfold State.takeEnd; (repeat' split) <;> simp
@[simp] theorem takeEnd_freeDraws (p : Port) (s : State) : (s.takeEnd p).freeDraws = s.freeDraws := by
  unfold State.takeEnd; (repeat' split) <;> simp
@[simp] theorem takeEnd_pending (p : Port) (s : State) : (s.takeEnd p).pending = s.pending := by
  unfold State.takeEnd; (repeat' split) <;> simp

/-- All that `takeEnd` may change. -/
theorem takeEnd_shape (p : Port) (s : State) :
    s.takeEnd p = { s with
      freeCells := (s.takeEnd p).freeCells, freeRecords := (s.takeEnd p).freeRecords,
      records := (s.takeEnd p).records, ports := (s.takeEnd p).ports,
      exc := (s.takeEnd p).exc, follow := (s.takeEnd p).follow } := by
  ext1 <;> simp

@[simp] theorem takeGroup_timebase (p : Port) (g : LineGroup) (s : State) : (s.takeGroup p g).timebase = s.timebase := by
  unfold State.takeGroup; (repeat' split) <;> simp
@[simp] theorem takeGroup_straps (p : Port) (g : LineGroup) (s : State) : (s.takeGroup p g).straps = s.straps := by
  unfold State.takeGroup; (repeat' split) <;> simp
@[simp] theorem takeGroup_station (p : Port) (g : LineGroup) (s : State) : (s.takeGroup p g).station = s.station := by
  unfold State.takeGroup; (repeat' split) <;> simp
@[simp] theorem takeGroup_entries (p : Port) (g : LineGroup) (s : State) : (s.takeGroup p g).entries = s.entries := by
  unfold State.takeGroup; (repeat' split) <;> simp
@[simp] theorem takeGroup_defaults (p : Port) (g : LineGroup) (s : State) : (s.takeGroup p g).defaults = s.defaults := by
  unfold State.takeGroup; (repeat' split) <;> simp
@[simp] theorem takeGroup_deques (p : Port) (g : LineGroup) (s : State) : (s.takeGroup p g).deques = s.deques := by
  unfold State.takeGroup; (repeat' split) <;> simp
@[simp] theorem takeGroup_engine (p : Port) (g : LineGroup) (s : State) : (s.takeGroup p g).engine = s.engine := by
  unfold State.takeGroup; (repeat' split) <;> simp
@[simp] theorem takeGroup_claim (p : Port) (g : LineGroup) (s : State) : (s.takeGroup p g).claim = s.claim := by
  unfold State.takeGroup; (repeat' split) <;> simp
@[simp] theorem takeGroup_check (p : Port) (g : LineGroup) (s : State) : (s.takeGroup p g).check = s.check := by
  unfold State.takeGroup; (repeat' split) <;> simp
@[simp] theorem takeGroup_freeDraws (p : Port) (g : LineGroup) (s : State) : (s.takeGroup p g).freeDraws = s.freeDraws := by
  unfold State.takeGroup; (repeat' split) <;> simp
@[simp] theorem takeGroup_pending (p : Port) (g : LineGroup) (s : State) : (s.takeGroup p g).pending = s.pending := by
  unfold State.takeGroup; (repeat' split) <;> simp

@[simp] theorem reachReceiver_timebase (p : Port) (g : LineGroup) (s : State) : (s.reachReceiver p g).timebase = s.timebase := by
  unfold State.reachReceiver; (repeat' split) <;> simp
@[simp] theorem reachReceiver_straps (p : Port) (g : LineGroup) (s : State) : (s.reachReceiver p g).straps = s.straps := by
  unfold State.reachReceiver; (repeat' split) <;> simp
@[simp] theorem reachReceiver_station (p : Port) (g : LineGroup) (s : State) : (s.reachReceiver p g).station = s.station := by
  unfold State.reachReceiver; (repeat' split) <;> simp
@[simp] theorem reachReceiver_entries (p : Port) (g : LineGroup) (s : State) : (s.reachReceiver p g).entries = s.entries := by
  unfold State.reachReceiver; (repeat' split) <;> simp
@[simp] theorem reachReceiver_defaults (p : Port) (g : LineGroup) (s : State) : (s.reachReceiver p g).defaults = s.defaults := by
  unfold State.reachReceiver; (repeat' split) <;> simp
@[simp] theorem reachReceiver_deques (p : Port) (g : LineGroup) (s : State) : (s.reachReceiver p g).deques = s.deques := by
  unfold State.reachReceiver; (repeat' split) <;> simp
@[simp] theorem reachReceiver_engine (p : Port) (g : LineGroup) (s : State) : (s.reachReceiver p g).engine = s.engine := by
  unfold State.reachReceiver; (repeat' split) <;> simp
@[simp] theorem reachReceiver_claim (p : Port) (g : LineGroup) (s : State) : (s.reachReceiver p g).claim = s.claim := by
  unfold State.reachReceiver; (repeat' split) <;> simp
@[simp] theorem reachReceiver_check (p : Port) (g : LineGroup) (s : State) : (s.reachReceiver p g).check = s.check := by
  unfold State.reachReceiver; (repeat' split) <;> simp
@[simp] theorem reachReceiver_freeDraws (p : Port) (g : LineGroup) (s : State) : (s.reachReceiver p g).freeDraws = s.freeDraws := by
  unfold State.reachReceiver; (repeat' split) <;> simp
@[simp] theorem reachReceiver_pending (p : Port) (g : LineGroup) (s : State) : (s.reachReceiver p g).pending = s.pending := by
  unfold State.reachReceiver; (repeat' split) <;> simp

@[simp] theorem takeWaiting_timebase (p : Port) (s : State) : (s.takeWaiting p).timebase = s.timebase := by
  unfold State.takeWaiting; (repeat' split) <;> simp
@[simp] theorem takeWaiting_straps (p : Port) (s : State) : (s.takeWaiting p).straps = s.straps := by
  unfold State.takeWaiting; (repeat' split) <;> simp
@[simp] theorem takeWaiting_station (p : Port) (s : State) : (s.takeWaiting p).station = s.station := by
  unfold State.takeWaiting; (repeat' split) <;> simp
@[simp] theorem takeWaiting_entries (p : Port) (s : State) : (s.takeWaiting p).entries = s.entries := by
  unfold State.takeWaiting; (repeat' split) <;> simp
@[simp] theorem takeWaiting_defaults (p : Port) (s : State) : (s.takeWaiting p).defaults = s.defaults := by
  unfold State.takeWaiting; (repeat' split) <;> simp
@[simp] theorem takeWaiting_deques (p : Port) (s : State) : (s.takeWaiting p).deques = s.deques := by
  unfold State.takeWaiting; (repeat' split) <;> simp
@[simp] theorem takeWaiting_engine (p : Port) (s : State) : (s.takeWaiting p).engine = s.engine := by
  unfold State.takeWaiting; (repeat' split) <;> simp
@[simp] theorem takeWaiting_claim (p : Port) (s : State) : (s.takeWaiting p).claim = s.claim := by
  unfold State.takeWaiting; (repeat' split) <;> simp
@[simp] theorem takeWaiting_check (p : Port) (s : State) : (s.takeWaiting p).check = s.check := by
  unfold State.takeWaiting; (repeat' split) <;> simp
@[simp] theorem takeWaiting_freeDraws (p : Port) (s : State) : (s.takeWaiting p).freeDraws = s.freeDraws := by
  unfold State.takeWaiting; (repeat' split) <;> simp
@[simp] theorem takeWaiting_pending (p : Port) (s : State) : (s.takeWaiting p).pending = s.pending := by
  unfold State.takeWaiting; (repeat' split) <;> simp

/-- All that `takeWaiting` may change. -/
theorem takeWaiting_shape (p : Port) (s : State) :
    s.takeWaiting p = { s with
      mem := (s.takeWaiting p).mem, ecc := (s.takeWaiting p).ecc,
      freeCells := (s.takeWaiting p).freeCells, freeRecords := (s.takeWaiting p).freeRecords,
      records := (s.takeWaiting p).records, ports := (s.takeWaiting p).ports,
      exc := (s.takeWaiting p).exc, follow := (s.takeWaiting p).follow } := by
  ext1 <;> simp

@[simp] theorem lineGroup_timebase (p : Port) (g : LineGroup) (s : State) : (s.lineGroup p g).timebase = s.timebase := by
  simp only [State.lineGroup]; split <;> simp
@[simp] theorem lineGroup_straps (p : Port) (g : LineGroup) (s : State) : (s.lineGroup p g).straps = s.straps := by
  simp only [State.lineGroup]; split <;> simp
@[simp] theorem lineGroup_station (p : Port) (g : LineGroup) (s : State) : (s.lineGroup p g).station = s.station := by
  simp only [State.lineGroup]; split <;> simp
@[simp] theorem lineGroup_entries (p : Port) (g : LineGroup) (s : State) : (s.lineGroup p g).entries = s.entries := by
  simp only [State.lineGroup]; split <;> simp
@[simp] theorem lineGroup_defaults (p : Port) (g : LineGroup) (s : State) : (s.lineGroup p g).defaults = s.defaults := by
  simp only [State.lineGroup]; split <;> simp
@[simp] theorem lineGroup_deques (p : Port) (g : LineGroup) (s : State) : (s.lineGroup p g).deques = s.deques := by
  simp only [State.lineGroup]; split <;> simp
@[simp] theorem lineGroup_engine (p : Port) (g : LineGroup) (s : State) : (s.lineGroup p g).engine = s.engine := by
  simp only [State.lineGroup]; split <;> simp
@[simp] theorem lineGroup_claim (p : Port) (g : LineGroup) (s : State) : (s.lineGroup p g).claim = s.claim := by
  simp only [State.lineGroup]; split <;> simp
@[simp] theorem lineGroup_check (p : Port) (g : LineGroup) (s : State) : (s.lineGroup p g).check = s.check := by
  simp only [State.lineGroup]; split <;> simp
@[simp] theorem lineGroup_freeDraws (p : Port) (g : LineGroup) (s : State) : (s.lineGroup p g).freeDraws = s.freeDraws := by
  simp only [State.lineGroup]; split <;> simp
@[simp] theorem lineGroup_pending (p : Port) (g : LineGroup) (s : State) : (s.lineGroup p g).pending = s.pending := by
  simp only [State.lineGroup]; split <;> simp

/-- All that `lineGroup` may change. -/
theorem lineGroup_shape (p : Port) (g : LineGroup) (s : State) :
    s.lineGroup p g = { s with
      mem := (s.lineGroup p g).mem, ecc := (s.lineGroup p g).ecc,
      freeCells := (s.lineGroup p g).freeCells, freeRecords := (s.lineGroup p g).freeRecords,
      records := (s.lineGroup p g).records, ports := (s.lineGroup p g).ports,
      exc := (s.lineGroup p g).exc, follow := (s.lineGroup p g).follow } := by
  ext1 <;> simp

/-! ## Checked reads and transmitters -/

@[simp] theorem checkedReads_timebase (p : Port) (d : DequeNo) (m : Option Summary) (cs : List CellNo) (s : State) :
    (s.checkedReads p d m cs).2.timebase = s.timebase := by
  induction cs generalizing s with
  | nil => rfl
  | cons c cs ih => simp only [State.checkedReads]; split <;> simp [ih]
@[simp] theorem checkedReads_straps (p : Port) (d : DequeNo) (m : Option Summary) (cs : List CellNo) (s : State) :
    (s.checkedReads p d m cs).2.straps = s.straps := by
  induction cs generalizing s with
  | nil => rfl
  | cons c cs ih => simp only [State.checkedReads]; split <;> simp [ih]
@[simp] theorem checkedReads_station (p : Port) (d : DequeNo) (m : Option Summary) (cs : List CellNo) (s : State) :
    (s.checkedReads p d m cs).2.station = s.station := by
  induction cs generalizing s with
  | nil => rfl
  | cons c cs ih => simp only [State.checkedReads]; split <;> simp [ih]
@[simp] theorem checkedReads_entries (p : Port) (d : DequeNo) (m : Option Summary) (cs : List CellNo) (s : State) :
    (s.checkedReads p d m cs).2.entries = s.entries := by
  induction cs generalizing s with
  | nil => rfl
  | cons c cs ih => simp only [State.checkedReads]; split <;> simp [ih]
@[simp] theorem checkedReads_defaults (p : Port) (d : DequeNo) (m : Option Summary) (cs : List CellNo) (s : State) :
    (s.checkedReads p d m cs).2.defaults = s.defaults := by
  induction cs generalizing s with
  | nil => rfl
  | cons c cs ih => simp only [State.checkedReads]; split <;> simp [ih]
@[simp] theorem checkedReads_deques (p : Port) (d : DequeNo) (m : Option Summary) (cs : List CellNo) (s : State) :
    (s.checkedReads p d m cs).2.deques = s.deques := by
  induction cs generalizing s with
  | nil => rfl
  | cons c cs ih => simp only [State.checkedReads]; split <;> simp [ih]
@[simp] theorem checkedReads_mem (p : Port) (d : DequeNo) (m : Option Summary) (cs : List CellNo) (s : State) :
    (s.checkedReads p d m cs).2.mem = s.mem := by
  induction cs generalizing s with
  | nil => rfl
  | cons c cs ih => simp only [State.checkedReads]; split <;> simp [ih]
@[simp] theorem checkedReads_ecc (p : Port) (d : DequeNo) (m : Option Summary) (cs : List CellNo) (s : State) :
    (s.checkedReads p d m cs).2.ecc = s.ecc := by
  induction cs generalizing s with
  | nil => rfl
  | cons c cs ih => simp only [State.checkedReads]; split <;> simp [ih]
@[simp] theorem checkedReads_freeCells (p : Port) (d : DequeNo) (m : Option Summary) (cs : List CellNo) (s : State) :
    (s.checkedReads p d m cs).2.freeCells = s.freeCells := by
  induction cs generalizing s with
  | nil => rfl
  | cons c cs ih => simp only [State.checkedReads]; split <;> simp [ih]
@[simp] theorem checkedReads_freeRecords (p : Port) (d : DequeNo) (m : Option Summary) (cs : List CellNo) (s : State) :
    (s.checkedReads p d m cs).2.freeRecords = s.freeRecords := by
  induction cs generalizing s with
  | nil => rfl
  | cons c cs ih => simp only [State.checkedReads]; split <;> simp [ih]
@[simp] theorem checkedReads_records (p : Port) (d : DequeNo) (m : Option Summary) (cs : List CellNo) (s : State) :
    (s.checkedReads p d m cs).2.records = s.records := by
  induction cs generalizing s with
  | nil => rfl
  | cons c cs ih => simp only [State.checkedReads]; split <;> simp [ih]
@[simp] theorem checkedReads_ports (p : Port) (d : DequeNo) (m : Option Summary) (cs : List CellNo) (s : State) :
    (s.checkedReads p d m cs).2.ports = s.ports := by
  induction cs generalizing s with
  | nil => rfl
  | cons c cs ih => simp only [State.checkedReads]; split <;> simp [ih]
@[simp] theorem checkedReads_engine (p : Port) (d : DequeNo) (m : Option Summary) (cs : List CellNo) (s : State) :
    (s.checkedReads p d m cs).2.engine = s.engine := by
  induction cs generalizing s with
  | nil => rfl
  | cons c cs ih => simp only [State.checkedReads]; split <;> simp [ih]
@[simp] theorem checkedReads_claim (p : Port) (d : DequeNo) (m : Option Summary) (cs : List CellNo) (s : State) :
    (s.checkedReads p d m cs).2.claim = s.claim := by
  induction cs generalizing s with
  | nil => rfl
  | cons c cs ih => simp only [State.checkedReads]; split <;> simp [ih]
@[simp] theorem checkedReads_freeDraws (p : Port) (d : DequeNo) (m : Option Summary) (cs : List CellNo) (s : State) :
    (s.checkedReads p d m cs).2.freeDraws = s.freeDraws := by
  induction cs generalizing s with
  | nil => rfl
  | cons c cs ih => simp only [State.checkedReads]; split <;> simp [ih]
@[simp] theorem checkedReads_pending (p : Port) (d : DequeNo) (m : Option Summary) (cs : List CellNo) (s : State) :
    (s.checkedReads p d m cs).2.pending = s.pending := by
  induction cs generalizing s with
  | nil => rfl
  | cons c cs ih => simp only [State.checkedReads]; split <;> simp [ih]

/-- All that reads of cells may change: exceptions, the check record and debts. -/
theorem checkedReads_shape (p : Port) (d : DequeNo) (m : Option Summary) (cs : List CellNo) (s : State) :
    (s.checkedReads p d m cs).2 = { s with
      exc := (s.checkedReads p d m cs).2.exc, check := (s.checkedReads p d m cs).2.check,
      follow := (s.checkedReads p d m cs).2.follow } := by
  ext1 <;> simp

/-- Reads of sound cells find nothing. -/
theorem checkedReads_of_sound {p : Port} {d : DequeNo} {m : Option Summary} {cs : List CellNo} {s : State}
    (h : ∀ c ∈ cs, s.eccOf c = .sound) : s.checkedReads p d m cs = (none, s) := by
  induction cs with
  | nil => rfl
  | cons c cs ih =>
    rw [State.checkedReads, h c (by simp)]
    exact ih (fun x hx => h x (by simp [hx]))

/-- Sound cells before a read are passed over. -/
theorem checkedReads_append_of_sound {p : Port} {d : DequeNo} {m : Option Summary} {cs ds : List CellNo} {s : State}
    (h : ∀ c ∈ cs, s.eccOf c = .sound) : s.checkedReads p d m (cs ++ ds) = s.checkedReads p d m ds := by
  induction cs with
  | nil => rfl
  | cons c cs ih =>
    rw [List.cons_append, State.checkedReads, h c (by simp)]
    exact ih (fun x hx => h x (by simp [hx]))

@[simp] theorem endTransmission_timebase (p : Port) (r : RecordNo) (s : State) : (s.endTransmission p r).timebase = s.timebase := by
  simp [State.endTransmission]
@[simp] theorem endTransmission_straps (p : Port) (r : RecordNo) (s : State) : (s.endTransmission p r).straps = s.straps := by
  simp [State.endTransmission]
@[simp] theorem endTransmission_station (p : Port) (r : RecordNo) (s : State) : (s.endTransmission p r).station = s.station := by
  simp [State.endTransmission]
@[simp] theorem endTransmission_entries (p : Port) (r : RecordNo) (s : State) : (s.endTransmission p r).entries = s.entries := by
  simp [State.endTransmission]
@[simp] theorem endTransmission_defaults (p : Port) (r : RecordNo) (s : State) : (s.endTransmission p r).defaults = s.defaults := by
  simp [State.endTransmission]
@[simp] theorem endTransmission_mem (p : Port) (r : RecordNo) (s : State) : (s.endTransmission p r).mem = s.mem := by
  simp [State.endTransmission]
@[simp] theorem endTransmission_ecc (p : Port) (r : RecordNo) (s : State) : (s.endTransmission p r).ecc = s.ecc := by
  simp [State.endTransmission]
@[simp] theorem endTransmission_engine (p : Port) (r : RecordNo) (s : State) : (s.endTransmission p r).engine = s.engine := by
  simp [State.endTransmission]
@[simp] theorem endTransmission_claim (p : Port) (r : RecordNo) (s : State) : (s.endTransmission p r).claim = s.claim := by
  simp [State.endTransmission]
@[simp] theorem endTransmission_check (p : Port) (r : RecordNo) (s : State) : (s.endTransmission p r).check = s.check := by
  simp [State.endTransmission]
@[simp] theorem endTransmission_freeDraws (p : Port) (r : RecordNo) (s : State) : (s.endTransmission p r).freeDraws = s.freeDraws := by
  simp [State.endTransmission]
@[simp] theorem endTransmission_pending (p : Port) (r : RecordNo) (s : State) : (s.endTransmission p r).pending = s.pending := by
  simp [State.endTransmission]

/-- All that `endTransmission` may change. -/
theorem endTransmission_shape (p : Port) (r : RecordNo) (s : State) :
    s.endTransmission p r = { s with
      deques := (s.endTransmission p r).deques, freeCells := (s.endTransmission p r).freeCells,
      freeRecords := (s.endTransmission p r).freeRecords, records := (s.endTransmission p r).records,
      ports := (s.endTransmission p r).ports, exc := (s.endTransmission p r).exc,
      follow := (s.endTransmission p r).follow } := by
  ext1 <;> simp

@[simp] theorem poisonedEnd_timebase (p : Port) (r : RecordNo) (d : DequeNo) (c : CellNo) (x : Option Byte) (s : State) : (s.poisonedEnd p r d c x).timebase = s.timebase := by
  simp [State.poisonedEnd, State.lostByCheck]
@[simp] theorem poisonedEnd_straps (p : Port) (r : RecordNo) (d : DequeNo) (c : CellNo) (x : Option Byte) (s : State) : (s.poisonedEnd p r d c x).straps = s.straps := by
  simp [State.poisonedEnd, State.lostByCheck]
@[simp] theorem poisonedEnd_station (p : Port) (r : RecordNo) (d : DequeNo) (c : CellNo) (x : Option Byte) (s : State) : (s.poisonedEnd p r d c x).station = s.station := by
  simp [State.poisonedEnd, State.lostByCheck]
@[simp] theorem poisonedEnd_entries (p : Port) (r : RecordNo) (d : DequeNo) (c : CellNo) (x : Option Byte) (s : State) : (s.poisonedEnd p r d c x).entries = s.entries := by
  simp [State.poisonedEnd, State.lostByCheck]
@[simp] theorem poisonedEnd_defaults (p : Port) (r : RecordNo) (d : DequeNo) (c : CellNo) (x : Option Byte) (s : State) : (s.poisonedEnd p r d c x).defaults = s.defaults := by
  simp [State.poisonedEnd, State.lostByCheck]
@[simp] theorem poisonedEnd_mem (p : Port) (r : RecordNo) (d : DequeNo) (c : CellNo) (x : Option Byte) (s : State) : (s.poisonedEnd p r d c x).mem = s.mem := by
  simp [State.poisonedEnd, State.lostByCheck]
@[simp] theorem poisonedEnd_ecc (p : Port) (r : RecordNo) (d : DequeNo) (c : CellNo) (x : Option Byte) (s : State) : (s.poisonedEnd p r d c x).ecc = s.ecc := by
  simp [State.poisonedEnd, State.lostByCheck]
@[simp] theorem poisonedEnd_engine (p : Port) (r : RecordNo) (d : DequeNo) (c : CellNo) (x : Option Byte) (s : State) : (s.poisonedEnd p r d c x).engine = s.engine := by
  simp [State.poisonedEnd, State.lostByCheck]
@[simp] theorem poisonedEnd_claim (p : Port) (r : RecordNo) (d : DequeNo) (c : CellNo) (x : Option Byte) (s : State) : (s.poisonedEnd p r d c x).claim = s.claim := by
  simp [State.poisonedEnd, State.lostByCheck]
@[simp] theorem poisonedEnd_check (p : Port) (r : RecordNo) (d : DequeNo) (c : CellNo) (x : Option Byte) (s : State) : (s.poisonedEnd p r d c x).check = s.check := by
  simp [State.poisonedEnd, State.lostByCheck]
@[simp] theorem poisonedEnd_freeDraws (p : Port) (r : RecordNo) (d : DequeNo) (c : CellNo) (x : Option Byte) (s : State) : (s.poisonedEnd p r d c x).freeDraws = s.freeDraws := by
  simp [State.poisonedEnd, State.lostByCheck]
@[simp] theorem poisonedEnd_pending (p : Port) (r : RecordNo) (d : DequeNo) (c : CellNo) (x : Option Byte) (s : State) : (s.poisonedEnd p r d c x).pending = s.pending := by
  simp [State.poisonedEnd, State.lostByCheck]

/-- All that `poisonedEnd` may change. -/
theorem poisonedEnd_shape (p : Port) (r : RecordNo) (d : DequeNo) (c : CellNo) (x : Option Byte) (s : State) :
    s.poisonedEnd p r d c x = { s with
      deques := (s.poisonedEnd p r d c x).deques, freeCells := (s.poisonedEnd p r d c x).freeCells,
      freeRecords := (s.poisonedEnd p r d c x).freeRecords, records := (s.poisonedEnd p r d c x).records,
      ports := (s.poisonedEnd p r d c x).ports, exc := (s.poisonedEnd p r d c x).exc,
      follow := (s.poisonedEnd p r d c x).follow } := by
  ext1 <;> simp

/-- The state that reads of cells answer with. -/
theorem checkedReads_eq_snd {s t : State} {p : Port} {d : DequeNo} {m : Option Summary} {cs : List CellNo}
    {x : Option (CellNo × Option Byte)} (h : s.checkedReads p d m cs = (x, t)) : t = (s.checkedReads p d m cs).2 := by
  rw [h]

@[simp] theorem readCells_timebase (p : Port) (r : RecordNo) (d : DequeNo) (l : List CellNo) (n : Nat) (s : State) : ((s.readCells p r d l n).2).timebase = s.timebase := by
  unfold State.readCells
  split <;> rename_i h <;> simp [checkedReads_eq_snd h]
@[simp] theorem readCells_straps (p : Port) (r : RecordNo) (d : DequeNo) (l : List CellNo) (n : Nat) (s : State) : ((s.readCells p r d l n).2).straps = s.straps := by
  unfold State.readCells
  split <;> rename_i h <;> simp [checkedReads_eq_snd h]
@[simp] theorem readCells_station (p : Port) (r : RecordNo) (d : DequeNo) (l : List CellNo) (n : Nat) (s : State) : ((s.readCells p r d l n).2).station = s.station := by
  unfold State.readCells
  split <;> rename_i h <;> simp [checkedReads_eq_snd h]
@[simp] theorem readCells_entries (p : Port) (r : RecordNo) (d : DequeNo) (l : List CellNo) (n : Nat) (s : State) : ((s.readCells p r d l n).2).entries = s.entries := by
  unfold State.readCells
  split <;> rename_i h <;> simp [checkedReads_eq_snd h]
@[simp] theorem readCells_defaults (p : Port) (r : RecordNo) (d : DequeNo) (l : List CellNo) (n : Nat) (s : State) : ((s.readCells p r d l n).2).defaults = s.defaults := by
  unfold State.readCells
  split <;> rename_i h <;> simp [checkedReads_eq_snd h]
@[simp] theorem readCells_mem (p : Port) (r : RecordNo) (d : DequeNo) (l : List CellNo) (n : Nat) (s : State) : ((s.readCells p r d l n).2).mem = s.mem := by
  unfold State.readCells
  split <;> rename_i h <;> simp [checkedReads_eq_snd h]
@[simp] theorem readCells_ecc (p : Port) (r : RecordNo) (d : DequeNo) (l : List CellNo) (n : Nat) (s : State) : ((s.readCells p r d l n).2).ecc = s.ecc := by
  unfold State.readCells
  split <;> rename_i h <;> simp [checkedReads_eq_snd h]
@[simp] theorem readCells_engine (p : Port) (r : RecordNo) (d : DequeNo) (l : List CellNo) (n : Nat) (s : State) : ((s.readCells p r d l n).2).engine = s.engine := by
  unfold State.readCells
  split <;> rename_i h <;> simp [checkedReads_eq_snd h]
@[simp] theorem readCells_claim (p : Port) (r : RecordNo) (d : DequeNo) (l : List CellNo) (n : Nat) (s : State) : ((s.readCells p r d l n).2).claim = s.claim := by
  unfold State.readCells
  split <;> rename_i h <;> simp [checkedReads_eq_snd h]
@[simp] theorem readCells_freeDraws (p : Port) (r : RecordNo) (d : DequeNo) (l : List CellNo) (n : Nat) (s : State) : ((s.readCells p r d l n).2).freeDraws = s.freeDraws := by
  unfold State.readCells
  split <;> rename_i h <;> simp [checkedReads_eq_snd h]
@[simp] theorem readCells_pending (p : Port) (r : RecordNo) (d : DequeNo) (l : List CellNo) (n : Nat) (s : State) : ((s.readCells p r d l n).2).pending = s.pending := by
  unfold State.readCells
  split <;> rename_i h <;> simp [checkedReads_eq_snd h]

/-! ## The engine -/

@[simp] theorem advance_timebase (j : Job) (s : State) : (s.advance j).timebase = s.timebase := by
  unfold State.advance; (repeat' split) <;> simp
@[simp] theorem advance_straps (j : Job) (s : State) : (s.advance j).straps = s.straps := by
  unfold State.advance; (repeat' split) <;> simp
@[simp] theorem advance_station (j : Job) (s : State) : (s.advance j).station = s.station := by
  unfold State.advance; (repeat' split) <;> simp
@[simp] theorem advance_entries (j : Job) (s : State) : (s.advance j).entries = s.entries := by
  unfold State.advance; (repeat' split) <;> simp
@[simp] theorem advance_defaults (j : Job) (s : State) : (s.advance j).defaults = s.defaults := by
  unfold State.advance; (repeat' split) <;> simp
@[simp] theorem advance_deques (j : Job) (s : State) : (s.advance j).deques = s.deques := by
  unfold State.advance; (repeat' split) <;> simp
@[simp] theorem advance_mem (j : Job) (s : State) : (s.advance j).mem = s.mem := by
  unfold State.advance; (repeat' split) <;> simp
@[simp] theorem advance_ecc (j : Job) (s : State) : (s.advance j).ecc = s.ecc := by
  unfold State.advance; (repeat' split) <;> simp
@[simp] theorem advance_freeCells (j : Job) (s : State) : (s.advance j).freeCells = s.freeCells := by
  unfold State.advance; (repeat' split) <;> simp
@[simp] theorem advance_freeRecords (j : Job) (s : State) : (s.advance j).freeRecords = s.freeRecords := by
  unfold State.advance; (repeat' split) <;> simp
@[simp] theorem advance_records (j : Job) (s : State) : (s.advance j).records = s.records := by
  unfold State.advance; (repeat' split) <;> simp
@[simp] theorem advance_ports (j : Job) (s : State) : (s.advance j).ports = s.ports := by
  unfold State.advance; (repeat' split) <;> simp
@[simp] theorem advance_claim (j : Job) (s : State) : (s.advance j).claim = s.claim := by
  unfold State.advance; (repeat' split) <;> simp
@[simp] theorem advance_exc (j : Job) (s : State) : (s.advance j).exc = s.exc := by
  unfold State.advance; (repeat' split) <;> simp
@[simp] theorem advance_check (j : Job) (s : State) : (s.advance j).check = s.check := by
  unfold State.advance; (repeat' split) <;> simp
@[simp] theorem advance_freeDraws (j : Job) (s : State) : (s.advance j).freeDraws = s.freeDraws := by
  unfold State.advance; (repeat' split) <;> simp
@[simp] theorem advance_pending (j : Job) (s : State) : (s.advance j).pending = s.pending := by
  unfold State.advance; (repeat' split) <;> simp

/-- All that `advance` may change. -/
theorem advance_shape (j : Job) (s : State) :
    s.advance j = { s with
      engine := (s.advance j).engine, follow := (s.advance j).follow } := by
  ext1 <;> simp

@[simp] theorem conclude_timebase (j : Job) (code : Byte) (st : Status) (data : List Byte) (s : State) : (s.conclude j code st data).timebase = s.timebase := by
  simp [State.conclude]
@[simp] theorem conclude_straps (j : Job) (code : Byte) (st : Status) (data : List Byte) (s : State) : (s.conclude j code st data).straps = s.straps := by
  simp [State.conclude]
@[simp] theorem conclude_station (j : Job) (code : Byte) (st : Status) (data : List Byte) (s : State) : (s.conclude j code st data).station = s.station := by
  simp [State.conclude]
@[simp] theorem conclude_entries (j : Job) (code : Byte) (st : Status) (data : List Byte) (s : State) : (s.conclude j code st data).entries = s.entries := by
  simp [State.conclude]
@[simp] theorem conclude_defaults (j : Job) (code : Byte) (st : Status) (data : List Byte) (s : State) : (s.conclude j code st data).defaults = s.defaults := by
  simp [State.conclude]
@[simp] theorem conclude_deques (j : Job) (code : Byte) (st : Status) (data : List Byte) (s : State) : (s.conclude j code st data).deques = s.deques := by
  simp [State.conclude]
@[simp] theorem conclude_mem (j : Job) (code : Byte) (st : Status) (data : List Byte) (s : State) : (s.conclude j code st data).mem = s.mem := by
  simp [State.conclude]
@[simp] theorem conclude_ecc (j : Job) (code : Byte) (st : Status) (data : List Byte) (s : State) : (s.conclude j code st data).ecc = s.ecc := by
  simp [State.conclude]
@[simp] theorem conclude_freeCells (j : Job) (code : Byte) (st : Status) (data : List Byte) (s : State) : (s.conclude j code st data).freeCells = s.freeCells := by
  simp [State.conclude]
@[simp] theorem conclude_freeRecords (j : Job) (code : Byte) (st : Status) (data : List Byte) (s : State) : (s.conclude j code st data).freeRecords = s.freeRecords := by
  simp [State.conclude]
@[simp] theorem conclude_records (j : Job) (code : Byte) (st : Status) (data : List Byte) (s : State) : (s.conclude j code st data).records = s.records := by
  simp [State.conclude]
@[simp] theorem conclude_ports (j : Job) (code : Byte) (st : Status) (data : List Byte) (s : State) : (s.conclude j code st data).ports = s.ports := by
  simp [State.conclude]
@[simp] theorem conclude_claim (j : Job) (code : Byte) (st : Status) (data : List Byte) (s : State) : (s.conclude j code st data).claim = s.claim := by
  simp [State.conclude]
@[simp] theorem conclude_exc (j : Job) (code : Byte) (st : Status) (data : List Byte) (s : State) : (s.conclude j code st data).exc = s.exc := by
  simp [State.conclude]
@[simp] theorem conclude_check (j : Job) (code : Byte) (st : Status) (data : List Byte) (s : State) : (s.conclude j code st data).check = s.check := by
  simp [State.conclude]
@[simp] theorem conclude_freeDraws (j : Job) (code : Byte) (st : Status) (data : List Byte) (s : State) : (s.conclude j code st data).freeDraws = s.freeDraws := by
  simp [State.conclude]
@[simp] theorem conclude_pending (j : Job) (code : Byte) (st : Status) (data : List Byte) (s : State) : (s.conclude j code st data).pending = s.pending := by
  simp [State.conclude]

/-- All that `conclude` may change. -/
theorem conclude_shape (j : Job) (code : Byte) (st : Status) (data : List Byte) (s : State) :
    s.conclude j code st data = { s with
      engine := (s.conclude j code st data).engine, follow := (s.conclude j code st data).follow } := by
  ext1 <;> simp

@[simp] theorem replyUndelivered_timebase (j : Job) (s : State) : (s.replyUndelivered j).timebase = s.timebase := by
  simp [State.replyUndelivered]
@[simp] theorem replyUndelivered_straps (j : Job) (s : State) : (s.replyUndelivered j).straps = s.straps := by
  simp [State.replyUndelivered]
@[simp] theorem replyUndelivered_station (j : Job) (s : State) : (s.replyUndelivered j).station = s.station := by
  simp [State.replyUndelivered]
@[simp] theorem replyUndelivered_entries (j : Job) (s : State) : (s.replyUndelivered j).entries = s.entries := by
  simp [State.replyUndelivered]
@[simp] theorem replyUndelivered_defaults (j : Job) (s : State) : (s.replyUndelivered j).defaults = s.defaults := by
  simp [State.replyUndelivered]
@[simp] theorem replyUndelivered_deques (j : Job) (s : State) : (s.replyUndelivered j).deques = s.deques := by
  simp [State.replyUndelivered]
@[simp] theorem replyUndelivered_mem (j : Job) (s : State) : (s.replyUndelivered j).mem = s.mem := by
  simp [State.replyUndelivered]
@[simp] theorem replyUndelivered_ecc (j : Job) (s : State) : (s.replyUndelivered j).ecc = s.ecc := by
  simp [State.replyUndelivered]
@[simp] theorem replyUndelivered_freeCells (j : Job) (s : State) : (s.replyUndelivered j).freeCells = s.freeCells := by
  simp [State.replyUndelivered]
@[simp] theorem replyUndelivered_freeRecords (j : Job) (s : State) : (s.replyUndelivered j).freeRecords = s.freeRecords := by
  simp [State.replyUndelivered]
@[simp] theorem replyUndelivered_records (j : Job) (s : State) : (s.replyUndelivered j).records = s.records := by
  simp [State.replyUndelivered]
@[simp] theorem replyUndelivered_ports (j : Job) (s : State) : (s.replyUndelivered j).ports = s.ports := by
  simp [State.replyUndelivered]
@[simp] theorem replyUndelivered_engine (j : Job) (s : State) : (s.replyUndelivered j).engine = s.engine := by
  simp [State.replyUndelivered]
@[simp] theorem replyUndelivered_claim (j : Job) (s : State) : (s.replyUndelivered j).claim = s.claim := by
  simp [State.replyUndelivered]
@[simp] theorem replyUndelivered_check (j : Job) (s : State) : (s.replyUndelivered j).check = s.check := by
  simp [State.replyUndelivered]
@[simp] theorem replyUndelivered_freeDraws (j : Job) (s : State) : (s.replyUndelivered j).freeDraws = s.freeDraws := by
  simp [State.replyUndelivered]
@[simp] theorem replyUndelivered_pending (j : Job) (s : State) : (s.replyUndelivered j).pending = s.pending := by
  simp [State.replyUndelivered]

@[simp] theorem releaseStored_timebase (k : Claim) (s : State) : (s.releaseStored k).timebase = s.timebase := by
  unfold State.releaseStored; (repeat' split) <;> simp
@[simp] theorem releaseStored_straps (k : Claim) (s : State) : (s.releaseStored k).straps = s.straps := by
  unfold State.releaseStored; (repeat' split) <;> simp
@[simp] theorem releaseStored_station (k : Claim) (s : State) : (s.releaseStored k).station = s.station := by
  unfold State.releaseStored; (repeat' split) <;> simp
@[simp] theorem releaseStored_entries (k : Claim) (s : State) : (s.releaseStored k).entries = s.entries := by
  unfold State.releaseStored; (repeat' split) <;> simp
@[simp] theorem releaseStored_defaults (k : Claim) (s : State) : (s.releaseStored k).defaults = s.defaults := by
  unfold State.releaseStored; (repeat' split) <;> simp
@[simp] theorem releaseStored_deques (k : Claim) (s : State) : (s.releaseStored k).deques = s.deques := by
  unfold State.releaseStored; (repeat' split) <;> simp
@[simp] theorem releaseStored_mem (k : Claim) (s : State) : (s.releaseStored k).mem = s.mem := by
  unfold State.releaseStored; (repeat' split) <;> simp
@[simp] theorem releaseStored_ecc (k : Claim) (s : State) : (s.releaseStored k).ecc = s.ecc := by
  unfold State.releaseStored; (repeat' split) <;> simp
@[simp] theorem releaseStored_ports (k : Claim) (s : State) : (s.releaseStored k).ports = s.ports := by
  unfold State.releaseStored; (repeat' split) <;> simp
@[simp] theorem releaseStored_engine (k : Claim) (s : State) : (s.releaseStored k).engine = s.engine := by
  unfold State.releaseStored; (repeat' split) <;> simp
@[simp] theorem releaseStored_claim (k : Claim) (s : State) : (s.releaseStored k).claim = s.claim := by
  unfold State.releaseStored; (repeat' split) <;> simp
@[simp] theorem releaseStored_exc (k : Claim) (s : State) : (s.releaseStored k).exc = s.exc := by
  unfold State.releaseStored; (repeat' split) <;> simp
@[simp] theorem releaseStored_check (k : Claim) (s : State) : (s.releaseStored k).check = s.check := by
  unfold State.releaseStored; (repeat' split) <;> simp
@[simp] theorem releaseStored_follow (k : Claim) (s : State) : (s.releaseStored k).follow = s.follow := by
  unfold State.releaseStored; (repeat' split) <;> simp
@[simp] theorem releaseStored_freeDraws (k : Claim) (s : State) : (s.releaseStored k).freeDraws = s.freeDraws := by
  unfold State.releaseStored; (repeat' split) <;> simp
@[simp] theorem releaseStored_pending (k : Claim) (s : State) : (s.releaseStored k).pending = s.pending := by
  unfold State.releaseStored; (repeat' split) <;> simp

@[simp] theorem addStored_timebase (n : Option RecordNo) (s : State) : (s.addStored n).timebase = s.timebase := by
  unfold State.addStored; (repeat' split) <;> simp
@[simp] theorem addStored_straps (n : Option RecordNo) (s : State) : (s.addStored n).straps = s.straps := by
  unfold State.addStored; (repeat' split) <;> simp
@[simp] theorem addStored_station (n : Option RecordNo) (s : State) : (s.addStored n).station = s.station := by
  unfold State.addStored; (repeat' split) <;> simp
@[simp] theorem addStored_entries (n : Option RecordNo) (s : State) : (s.addStored n).entries = s.entries := by
  unfold State.addStored; (repeat' split) <;> simp
@[simp] theorem addStored_defaults (n : Option RecordNo) (s : State) : (s.addStored n).defaults = s.defaults := by
  unfold State.addStored; (repeat' split) <;> simp
@[simp] theorem addStored_deques (n : Option RecordNo) (s : State) : (s.addStored n).deques = s.deques := by
  unfold State.addStored; (repeat' split) <;> simp
@[simp] theorem addStored_mem (n : Option RecordNo) (s : State) : (s.addStored n).mem = s.mem := by
  unfold State.addStored; (repeat' split) <;> simp
@[simp] theorem addStored_ecc (n : Option RecordNo) (s : State) : (s.addStored n).ecc = s.ecc := by
  unfold State.addStored; (repeat' split) <;> simp
@[simp] theorem addStored_freeCells (n : Option RecordNo) (s : State) : (s.addStored n).freeCells = s.freeCells := by
  unfold State.addStored; (repeat' split) <;> simp
@[simp] theorem addStored_freeRecords (n : Option RecordNo) (s : State) : (s.addStored n).freeRecords = s.freeRecords := by
  unfold State.addStored; (repeat' split) <;> simp
@[simp] theorem addStored_ports (n : Option RecordNo) (s : State) : (s.addStored n).ports = s.ports := by
  unfold State.addStored; (repeat' split) <;> simp
@[simp] theorem addStored_engine (n : Option RecordNo) (s : State) : (s.addStored n).engine = s.engine := by
  unfold State.addStored; (repeat' split) <;> simp
@[simp] theorem addStored_claim (n : Option RecordNo) (s : State) : (s.addStored n).claim = s.claim := by
  unfold State.addStored; (repeat' split) <;> simp
@[simp] theorem addStored_exc (n : Option RecordNo) (s : State) : (s.addStored n).exc = s.exc := by
  unfold State.addStored; (repeat' split) <;> simp
@[simp] theorem addStored_check (n : Option RecordNo) (s : State) : (s.addStored n).check = s.check := by
  unfold State.addStored; (repeat' split) <;> simp
@[simp] theorem addStored_follow (n : Option RecordNo) (s : State) : (s.addStored n).follow = s.follow := by
  unfold State.addStored; (repeat' split) <;> simp
@[simp] theorem addStored_freeDraws (n : Option RecordNo) (s : State) : (s.addStored n).freeDraws = s.freeDraws := by
  unfold State.addStored; (repeat' split) <;> simp
@[simp] theorem addStored_pending (n : Option RecordNo) (s : State) : (s.addStored n).pending = s.pending := by
  unfold State.addStored; (repeat' split) <;> simp

@[simp] theorem updateReplyMemory_timebase (j : Job) (n : Option RecordNo) (s : State) : (s.updateReplyMemory j n).timebase = s.timebase := by
  unfold State.updateReplyMemory; (repeat' split) <;> simp
@[simp] theorem updateReplyMemory_straps (j : Job) (n : Option RecordNo) (s : State) : (s.updateReplyMemory j n).straps = s.straps := by
  unfold State.updateReplyMemory; (repeat' split) <;> simp
@[simp] theorem updateReplyMemory_station (j : Job) (n : Option RecordNo) (s : State) : (s.updateReplyMemory j n).station = s.station := by
  unfold State.updateReplyMemory; (repeat' split) <;> simp
@[simp] theorem updateReplyMemory_entries (j : Job) (n : Option RecordNo) (s : State) : (s.updateReplyMemory j n).entries = s.entries := by
  unfold State.updateReplyMemory; (repeat' split) <;> simp
@[simp] theorem updateReplyMemory_defaults (j : Job) (n : Option RecordNo) (s : State) : (s.updateReplyMemory j n).defaults = s.defaults := by
  unfold State.updateReplyMemory; (repeat' split) <;> simp
@[simp] theorem updateReplyMemory_deques (j : Job) (n : Option RecordNo) (s : State) : (s.updateReplyMemory j n).deques = s.deques := by
  unfold State.updateReplyMemory; (repeat' split) <;> simp
@[simp] theorem updateReplyMemory_mem (j : Job) (n : Option RecordNo) (s : State) : (s.updateReplyMemory j n).mem = s.mem := by
  unfold State.updateReplyMemory; (repeat' split) <;> simp
@[simp] theorem updateReplyMemory_ecc (j : Job) (n : Option RecordNo) (s : State) : (s.updateReplyMemory j n).ecc = s.ecc := by
  unfold State.updateReplyMemory; (repeat' split) <;> simp
@[simp] theorem updateReplyMemory_ports (j : Job) (n : Option RecordNo) (s : State) : (s.updateReplyMemory j n).ports = s.ports := by
  unfold State.updateReplyMemory; (repeat' split) <;> simp
@[simp] theorem updateReplyMemory_engine (j : Job) (n : Option RecordNo) (s : State) : (s.updateReplyMemory j n).engine = s.engine := by
  unfold State.updateReplyMemory; (repeat' split) <;> simp
@[simp] theorem updateReplyMemory_exc (j : Job) (n : Option RecordNo) (s : State) : (s.updateReplyMemory j n).exc = s.exc := by
  unfold State.updateReplyMemory; (repeat' split) <;> simp
@[simp] theorem updateReplyMemory_check (j : Job) (n : Option RecordNo) (s : State) : (s.updateReplyMemory j n).check = s.check := by
  unfold State.updateReplyMemory; (repeat' split) <;> simp
@[simp] theorem updateReplyMemory_follow (j : Job) (n : Option RecordNo) (s : State) : (s.updateReplyMemory j n).follow = s.follow := by
  unfold State.updateReplyMemory; (repeat' split) <;> simp
@[simp] theorem updateReplyMemory_freeDraws (j : Job) (n : Option RecordNo) (s : State) : (s.updateReplyMemory j n).freeDraws = s.freeDraws := by
  unfold State.updateReplyMemory; (repeat' split) <;> simp
@[simp] theorem updateReplyMemory_pending (j : Job) (n : Option RecordNo) (s : State) : (s.updateReplyMemory j n).pending = s.pending := by
  unfold State.updateReplyMemory; (repeat' split) <;> simp

/-- All that `updateReplyMemory` may change. -/
theorem updateReplyMemory_shape (j : Job) (n : Option RecordNo) (s : State) :
    s.updateReplyMemory j n = { s with
      freeCells := (s.updateReplyMemory j n).freeCells, freeRecords := (s.updateReplyMemory j n).freeRecords,
      records := (s.updateReplyMemory j n).records, claim := (s.updateReplyMemory j n).claim } := by
  ext1 <;> simp

@[simp] theorem placeReply_timebase (j : Job) (r : RecordNo) (s : State) : (s.placeReply j r).timebase = s.timebase := by
  unfold State.placeReply
  (repeat' split) <;> (try rename_i ha) <;> first | (simp; done) | simp [arrive_eq_snd ha]
@[simp] theorem placeReply_straps (j : Job) (r : RecordNo) (s : State) : (s.placeReply j r).straps = s.straps := by
  unfold State.placeReply
  (repeat' split) <;> (try rename_i ha) <;> first | (simp; done) | simp [arrive_eq_snd ha]
@[simp] theorem placeReply_station (j : Job) (r : RecordNo) (s : State) : (s.placeReply j r).station = s.station := by
  unfold State.placeReply
  (repeat' split) <;> (try rename_i ha) <;> first | (simp; done) | simp [arrive_eq_snd ha]
@[simp] theorem placeReply_entries (j : Job) (r : RecordNo) (s : State) : (s.placeReply j r).entries = s.entries := by
  unfold State.placeReply
  (repeat' split) <;> (try rename_i ha) <;> first | (simp; done) | simp [arrive_eq_snd ha]
@[simp] theorem placeReply_defaults (j : Job) (r : RecordNo) (s : State) : (s.placeReply j r).defaults = s.defaults := by
  unfold State.placeReply
  (repeat' split) <;> (try rename_i ha) <;> first | (simp; done) | simp [arrive_eq_snd ha]
@[simp] theorem placeReply_mem (j : Job) (r : RecordNo) (s : State) : (s.placeReply j r).mem = s.mem := by
  unfold State.placeReply
  (repeat' split) <;> (try rename_i ha) <;> first | (simp; done) | simp [arrive_eq_snd ha]
@[simp] theorem placeReply_ecc (j : Job) (r : RecordNo) (s : State) : (s.placeReply j r).ecc = s.ecc := by
  unfold State.placeReply
  (repeat' split) <;> (try rename_i ha) <;> first | (simp; done) | simp [arrive_eq_snd ha]
@[simp] theorem placeReply_ports (j : Job) (r : RecordNo) (s : State) : (s.placeReply j r).ports = s.ports := by
  unfold State.placeReply
  (repeat' split) <;> (try rename_i ha) <;> first | (simp; done) | simp [arrive_eq_snd ha]
@[simp] theorem placeReply_engine (j : Job) (r : RecordNo) (s : State) : (s.placeReply j r).engine = s.engine := by
  unfold State.placeReply
  (repeat' split) <;> (try rename_i ha) <;> first | (simp; done) | simp [arrive_eq_snd ha]
@[simp] theorem placeReply_claim (j : Job) (r : RecordNo) (s : State) : (s.placeReply j r).claim = s.claim := by
  unfold State.placeReply
  (repeat' split) <;> (try rename_i ha) <;> first | (simp; done) | simp [arrive_eq_snd ha]
@[simp] theorem placeReply_check (j : Job) (r : RecordNo) (s : State) : (s.placeReply j r).check = s.check := by
  unfold State.placeReply
  (repeat' split) <;> (try rename_i ha) <;> first | (simp; done) | simp [arrive_eq_snd ha]
@[simp] theorem placeReply_freeDraws (j : Job) (r : RecordNo) (s : State) : (s.placeReply j r).freeDraws = s.freeDraws := by
  unfold State.placeReply
  (repeat' split) <;> (try rename_i ha) <;> first | (simp; done) | simp [arrive_eq_snd ha]
@[simp] theorem placeReply_pending (j : Job) (r : RecordNo) (s : State) : (s.placeReply j r).pending = s.pending := by
  unfold State.placeReply
  (repeat' split) <;> (try rename_i ha) <;> first | (simp; done) | simp [arrive_eq_snd ha]

/-- All that `placeReply` may change. -/
theorem placeReply_shape (j : Job) (r : RecordNo) (s : State) :
    s.placeReply j r = { s with
      deques := (s.placeReply j r).deques, freeCells := (s.placeReply j r).freeCells,
      freeRecords := (s.placeReply j r).freeRecords, records := (s.placeReply j r).records,
      exc := (s.placeReply j r).exc, follow := (s.placeReply j r).follow } := by
  ext1 <;> simp

@[simp] theorem finish_timebase (j : Job) (s : State) : (s.finish j).timebase = s.timebase := by
  simp only [State.finish]; (repeat' split) <;> simp
@[simp] theorem finish_straps (j : Job) (s : State) : (s.finish j).straps = s.straps := by
  simp only [State.finish]; (repeat' split) <;> simp
@[simp] theorem finish_station (j : Job) (s : State) : (s.finish j).station = s.station := by
  simp only [State.finish]; (repeat' split) <;> simp
@[simp] theorem finish_entries (j : Job) (s : State) : (s.finish j).entries = s.entries := by
  simp only [State.finish]; (repeat' split) <;> simp
@[simp] theorem finish_defaults (j : Job) (s : State) : (s.finish j).defaults = s.defaults := by
  simp only [State.finish]; (repeat' split) <;> simp
@[simp] theorem finish_deques (j : Job) (s : State) : (s.finish j).deques = s.deques := by
  simp only [State.finish]; (repeat' split) <;> simp
@[simp] theorem finish_mem (j : Job) (s : State) : (s.finish j).mem = s.mem := by
  simp only [State.finish]; (repeat' split) <;> simp
@[simp] theorem finish_ecc (j : Job) (s : State) : (s.finish j).ecc = s.ecc := by
  simp only [State.finish]; (repeat' split) <;> simp
@[simp] theorem finish_ports (j : Job) (s : State) : (s.finish j).ports = s.ports := by
  simp only [State.finish]; (repeat' split) <;> simp
@[simp] theorem finish_claim (j : Job) (s : State) : (s.finish j).claim = s.claim := by
  simp only [State.finish]; (repeat' split) <;> simp
@[simp] theorem finish_exc (j : Job) (s : State) : (s.finish j).exc = s.exc := by
  simp only [State.finish]; (repeat' split) <;> simp
@[simp] theorem finish_check (j : Job) (s : State) : (s.finish j).check = s.check := by
  simp only [State.finish]; (repeat' split) <;> simp
@[simp] theorem finish_freeDraws (j : Job) (s : State) : (s.finish j).freeDraws = s.freeDraws := by
  simp only [State.finish]; (repeat' split) <;> simp
@[simp] theorem finish_pending (j : Job) (s : State) : (s.finish j).pending = s.pending := by
  simp only [State.finish]; (repeat' split) <;> simp

/-- All that `finish` may change. -/
theorem finish_shape (j : Job) (s : State) :
    s.finish j = { s with
      freeCells := (s.finish j).freeCells, freeRecords := (s.finish j).freeRecords,
      records := (s.finish j).records, engine := (s.finish j).engine,
      follow := (s.finish j).follow } := by
  ext1 <;> simp

@[simp] theorem clearClaim_timebase (k : Claim) (s : State) : (s.clearClaim k).timebase = s.timebase := by
  simp [State.clearClaim]
@[simp] theorem clearClaim_straps (k : Claim) (s : State) : (s.clearClaim k).straps = s.straps := by
  simp [State.clearClaim]
@[simp] theorem clearClaim_station (k : Claim) (s : State) : (s.clearClaim k).station = s.station := by
  simp [State.clearClaim]
@[simp] theorem clearClaim_entries (k : Claim) (s : State) : (s.clearClaim k).entries = s.entries := by
  simp [State.clearClaim]
@[simp] theorem clearClaim_defaults (k : Claim) (s : State) : (s.clearClaim k).defaults = s.defaults := by
  simp [State.clearClaim]
@[simp] theorem clearClaim_deques (k : Claim) (s : State) : (s.clearClaim k).deques = s.deques := by
  simp [State.clearClaim]
@[simp] theorem clearClaim_mem (k : Claim) (s : State) : (s.clearClaim k).mem = s.mem := by
  simp [State.clearClaim]
@[simp] theorem clearClaim_ecc (k : Claim) (s : State) : (s.clearClaim k).ecc = s.ecc := by
  simp [State.clearClaim]
@[simp] theorem clearClaim_ports (k : Claim) (s : State) : (s.clearClaim k).ports = s.ports := by
  simp [State.clearClaim]
@[simp] theorem clearClaim_engine (k : Claim) (s : State) : (s.clearClaim k).engine = s.engine := by
  simp [State.clearClaim]
@[simp] theorem clearClaim_check (k : Claim) (s : State) : (s.clearClaim k).check = s.check := by
  simp [State.clearClaim]
@[simp] theorem clearClaim_follow (k : Claim) (s : State) : (s.clearClaim k).follow = s.follow := by
  simp [State.clearClaim]
@[simp] theorem clearClaim_freeDraws (k : Claim) (s : State) : (s.clearClaim k).freeDraws = s.freeDraws := by
  simp [State.clearClaim]
@[simp] theorem clearClaim_pending (k : Claim) (s : State) : (s.clearClaim k).pending = s.pending := by
  simp [State.clearClaim]

/-- All that `clearClaim` may change. -/
theorem clearClaim_shape (k : Claim) (s : State) :
    s.clearClaim k = { s with
      freeCells := (s.clearClaim k).freeCells, freeRecords := (s.clearClaim k).freeRecords,
      records := (s.clearClaim k).records, claim := (s.clearClaim k).claim,
      exc := (s.clearClaim k).exc } := by
  ext1 <;> simp

@[simp] theorem drainComplete_timebase (n : Nat) (s : State) : (s.drainComplete n).timebase = s.timebase := by
  unfold State.drainComplete; (repeat' split) <;> simp
@[simp] theorem drainComplete_straps (n : Nat) (s : State) : (s.drainComplete n).straps = s.straps := by
  unfold State.drainComplete; (repeat' split) <;> simp
@[simp] theorem drainComplete_station (n : Nat) (s : State) : (s.drainComplete n).station = s.station := by
  unfold State.drainComplete; (repeat' split) <;> simp
@[simp] theorem drainComplete_entries (n : Nat) (s : State) : (s.drainComplete n).entries = s.entries := by
  unfold State.drainComplete; (repeat' split) <;> simp
@[simp] theorem drainComplete_defaults (n : Nat) (s : State) : (s.drainComplete n).defaults = s.defaults := by
  unfold State.drainComplete; (repeat' split) <;> simp
@[simp] theorem drainComplete_deques (n : Nat) (s : State) : (s.drainComplete n).deques = s.deques := by
  unfold State.drainComplete; (repeat' split) <;> simp
@[simp] theorem drainComplete_mem (n : Nat) (s : State) : (s.drainComplete n).mem = s.mem := by
  unfold State.drainComplete; (repeat' split) <;> simp
@[simp] theorem drainComplete_ecc (n : Nat) (s : State) : (s.drainComplete n).ecc = s.ecc := by
  unfold State.drainComplete; (repeat' split) <;> simp
@[simp] theorem drainComplete_freeCells (n : Nat) (s : State) : (s.drainComplete n).freeCells = s.freeCells := by
  unfold State.drainComplete; (repeat' split) <;> simp
@[simp] theorem drainComplete_freeRecords (n : Nat) (s : State) : (s.drainComplete n).freeRecords = s.freeRecords := by
  unfold State.drainComplete; (repeat' split) <;> simp
@[simp] theorem drainComplete_records (n : Nat) (s : State) : (s.drainComplete n).records = s.records := by
  unfold State.drainComplete; (repeat' split) <;> simp
@[simp] theorem drainComplete_ports (n : Nat) (s : State) : (s.drainComplete n).ports = s.ports := by
  unfold State.drainComplete; (repeat' split) <;> simp
@[simp] theorem drainComplete_claim (n : Nat) (s : State) : (s.drainComplete n).claim = s.claim := by
  unfold State.drainComplete; (repeat' split) <;> simp
@[simp] theorem drainComplete_exc (n : Nat) (s : State) : (s.drainComplete n).exc = s.exc := by
  unfold State.drainComplete; (repeat' split) <;> simp
@[simp] theorem drainComplete_check (n : Nat) (s : State) : (s.drainComplete n).check = s.check := by
  unfold State.drainComplete; (repeat' split) <;> simp
@[simp] theorem drainComplete_freeDraws (n : Nat) (s : State) : (s.drainComplete n).freeDraws = s.freeDraws := by
  unfold State.drainComplete; (repeat' split) <;> simp
@[simp] theorem drainComplete_pending (n : Nat) (s : State) : (s.drainComplete n).pending = s.pending := by
  unfold State.drainComplete; (repeat' split) <;> simp

/-- All that `drainComplete` may change. -/
theorem drainComplete_shape (n : Nat) (s : State) :
    s.drainComplete n = { s with
      engine := (s.drainComplete n).engine, follow := (s.drainComplete n).follow } := by
  ext1 <;> simp

/-- A build that the pool refuses: no record, or fewer free cells than the frame needs (R57). -/
theorem build_of_refused {h : Header} {payload : List Byte} {s : State}
    (hs : s.freeRecords = [] ∨ s.freeCells.length < cellsFor (8 + payload.length)) : s.build h payload = none := by
  unfold State.build
  cases hr : s.freeRecords with
  | nil => rfl
  | cons r rest =>
    rcases hs with hs | hs
    · rw [hr] at hs; cases hs
    · simp [Nat.not_le.mpr hs]

/-- A build that the pool grants (R57). -/
theorem build_of_granted {h : Header} {payload : List Byte} {s : State} {r : RecordNo} {rest : List RecordNo}
    (hr : s.freeRecords = r :: rest) (hc : cellsFor (8 + payload.length) ≤ s.freeCells.length) :
    s.build h payload = some (r, { s.setRecord r
        (.held ⟨s.freeCells.take (cellsFor (8 + payload.length)), 8 + payload.length, .internal, h, s.timebase, 1⟩) with
      freeRecords := rest
      freeCells := s.freeCells.drop (cellsFor (8 + payload.length))
      mem := writeStored (s.freeCells.take (cellsFor (8 + payload.length))) 0 (h.encode payload.length ++ payload) s.mem
      ecc := freshCodes (s.freeCells.take (cellsFor (8 + payload.length))) s.ecc }) := by
  simp [State.build, hr, hc]

/-- With another order at the engine's position, or none, an order command only settles its debt (entry 6). -/
theorem dealOrder_of_other {o : Order} {greatest : Nat} {body : Body} {s : State}
    (h : ∀ j, s.engine = .executing j → j.current? ≠ some o) :
    s.dealOrder o greatest body = s.settle (orderCommand o) := by
  simp only [State.dealOrder]
  split
  · rename_i j hj
    rw [if_neg (h j (by simpa using hj))]
  · rfl

/-- The order at the engine's position is dealt with (R125). -/
theorem dealOrder_of_current {o : Order} {greatest : Nat} {body : Body} {s : State} {j : Job}
    (hj : s.engine = .executing j) (ho : j.current? = some o) :
    s.dealOrder o greatest body = (s.settle (orderCommand o)).deal j o.code greatest body := by
  simp [State.dealOrder, hj, ho]

/-- With no list end and room for the greatest result, the order itself is run (R125, R126). -/
theorem deal_of_room {j : Job} {code : Byte} {greatest : Nat} {body : Body} {s : State} (he : j.listEnd = none)
    (hr : j.dataUsed + greatest + j.fixedParts ≤ replyRoom) : s.deal j code greatest body = s.runBody j code body := by
  simp [State.deal, he, Nat.not_lt.mpr hr]

/-- The order that is due is run (R125). -/
theorem dealOrder_of_due {o : Order} {greatest : Nat} {body : Body} {s : State} {j : Job}
    (hj : s.engine = .executing j) (ho : j.current? = some o) (he : j.listEnd = none)
    (hr : j.dataUsed + greatest + j.fixedParts ≤ replyRoom) :
    s.dealOrder o greatest body = (s.settle (orderCommand o)).runBody j o.code body := by
  rw [dealOrder_of_current hj ho, deal_of_room he hr]

/-- An order completed with OK: its result joins the results under the job as it stands (R125). -/
theorem runBody_of_ok {j : Job} {code : Byte} {body : Body} {s t : State} {data : List Byte} (he : j.listEnd = none)
    (hb : body j s = (.result .ok data, t)) : s.runBody j code body = t.conclude j code .ok data := by
  have : { j with listEnd := j.endAfter .ok } = j := by simp [Job.endAfter, ← he]
  simp [State.runBody, hb, this]

/-- An order refused: no effect, and the list ends under the stop flag (R127). -/
theorem runBody_of_refused {j : Job} {code : Byte} {body : Body} {s t : State} {status : Status} {data : List Byte}
    (h1 : status ≠ .ok) (h2 : status ≠ .noRoom) (hb : body j s = (.result status data, t)) :
    s.runBody j code body =
      t.conclude { j with listEnd := if j.copy.stop then some .stop else none } code status data := by
  simp [State.runBody, hb, Job.endAfter, h1, h2]

/-- An order of the write group run by the holder goes on to its own checks (R132). -/
theorem holderOnly_of_holder {j : Job} {body : Body} {s : State} (h1 : j.role = .own)
    (h2 : s.holder? = some j.copy.src) : holderOnly body j s = body j s := by
  simp [holderOnly, notBroadcast, h1, h2]

/-- Check 3 (R143). -/
theorem notBroadcast_of_broadcast {j : Job} {body : Body} {s : State} (h : j.role = .broadcast) :
    notBroadcast body j s = refuse .notPermitted s := by
  simp [notBroadcast, h]

/-- Check 4 (R143). -/
theorem holderOnly_of_other {j : Job} {body : Body} {s : State} (h1 : j.role = .own)
    (h2 : s.holder? ≠ some j.copy.src) : holderOnly body j s = refuse .notHolder s := by
  simp [holderOnly, notBroadcast, h1, h2]

/-! ## Notices -/

@[simp] theorem noticeUndelivered_timebase (p : Port) (l : List Byte) (s : State) : (s.noticeUndelivered p l).timebase = s.timebase := by
  unfold State.noticeUndelivered; (repeat' split) <;> simp
@[simp] theorem noticeUndelivered_straps (p : Port) (l : List Byte) (s : State) : (s.noticeUndelivered p l).straps = s.straps := by
  unfold State.noticeUndelivered; (repeat' split) <;> simp
@[simp] theorem noticeUndelivered_station (p : Port) (l : List Byte) (s : State) : (s.noticeUndelivered p l).station = s.station := by
  unfold State.noticeUndelivered; (repeat' split) <;> simp
@[simp] theorem noticeUndelivered_entries (p : Port) (l : List Byte) (s : State) : (s.noticeUndelivered p l).entries = s.entries := by
  unfold State.noticeUndelivered; (repeat' split) <;> simp
@[simp] theorem noticeUndelivered_defaults (p : Port) (l : List Byte) (s : State) : (s.noticeUndelivered p l).defaults = s.defaults := by
  unfold State.noticeUndelivered; (repeat' split) <;> simp
@[simp] theorem noticeUndelivered_deques (p : Port) (l : List Byte) (s : State) : (s.noticeUndelivered p l).deques = s.deques := by
  unfold State.noticeUndelivered; (repeat' split) <;> simp
@[simp] theorem noticeUndelivered_mem (p : Port) (l : List Byte) (s : State) : (s.noticeUndelivered p l).mem = s.mem := by
  unfold State.noticeUndelivered; (repeat' split) <;> simp
@[simp] theorem noticeUndelivered_ecc (p : Port) (l : List Byte) (s : State) : (s.noticeUndelivered p l).ecc = s.ecc := by
  unfold State.noticeUndelivered; (repeat' split) <;> simp
@[simp] theorem noticeUndelivered_freeCells (p : Port) (l : List Byte) (s : State) : (s.noticeUndelivered p l).freeCells = s.freeCells := by
  unfold State.noticeUndelivered; (repeat' split) <;> simp
@[simp] theorem noticeUndelivered_freeRecords (p : Port) (l : List Byte) (s : State) : (s.noticeUndelivered p l).freeRecords = s.freeRecords := by
  unfold State.noticeUndelivered; (repeat' split) <;> simp
@[simp] theorem noticeUndelivered_records (p : Port) (l : List Byte) (s : State) : (s.noticeUndelivered p l).records = s.records := by
  unfold State.noticeUndelivered; (repeat' split) <;> simp
@[simp] theorem noticeUndelivered_ports (p : Port) (l : List Byte) (s : State) : (s.noticeUndelivered p l).ports = s.ports := by
  unfold State.noticeUndelivered; (repeat' split) <;> simp
@[simp] theorem noticeUndelivered_engine (p : Port) (l : List Byte) (s : State) : (s.noticeUndelivered p l).engine = s.engine := by
  unfold State.noticeUndelivered; (repeat' split) <;> simp
@[simp] theorem noticeUndelivered_claim (p : Port) (l : List Byte) (s : State) : (s.noticeUndelivered p l).claim = s.claim := by
  unfold State.noticeUndelivered; (repeat' split) <;> simp
@[simp] theorem noticeUndelivered_check (p : Port) (l : List Byte) (s : State) : (s.noticeUndelivered p l).check = s.check := by
  unfold State.noticeUndelivered; (repeat' split) <;> simp
@[simp] theorem noticeUndelivered_freeDraws (p : Port) (l : List Byte) (s : State) : (s.noticeUndelivered p l).freeDraws = s.freeDraws := by
  unfold State.noticeUndelivered; (repeat' split) <;> simp
@[simp] theorem noticeUndelivered_pending (p : Port) (l : List Byte) (s : State) : (s.noticeUndelivered p l).pending = s.pending := by
  unfold State.noticeUndelivered; (repeat' split) <;> simp

@[simp] theorem attemptAgain_timebase  (s : State) : (s.attemptAgain).timebase = s.timebase := by
  unfold State.attemptAgain; (repeat' split) <;> simp
@[simp] theorem attemptAgain_straps  (s : State) : (s.attemptAgain).straps = s.straps := by
  unfold State.attemptAgain; (repeat' split) <;> simp
@[simp] theorem attemptAgain_station  (s : State) : (s.attemptAgain).station = s.station := by
  unfold State.attemptAgain; (repeat' split) <;> simp
@[simp] theorem attemptAgain_entries  (s : State) : (s.attemptAgain).entries = s.entries := by
  unfold State.attemptAgain; (repeat' split) <;> simp
@[simp] theorem attemptAgain_defaults  (s : State) : (s.attemptAgain).defaults = s.defaults := by
  unfold State.attemptAgain; (repeat' split) <;> simp
@[simp] theorem attemptAgain_deques  (s : State) : (s.attemptAgain).deques = s.deques := by
  unfold State.attemptAgain; (repeat' split) <;> simp
@[simp] theorem attemptAgain_mem  (s : State) : (s.attemptAgain).mem = s.mem := by
  unfold State.attemptAgain; (repeat' split) <;> simp
@[simp] theorem attemptAgain_ecc  (s : State) : (s.attemptAgain).ecc = s.ecc := by
  unfold State.attemptAgain; (repeat' split) <;> simp
@[simp] theorem attemptAgain_freeCells  (s : State) : (s.attemptAgain).freeCells = s.freeCells := by
  unfold State.attemptAgain; (repeat' split) <;> simp
@[simp] theorem attemptAgain_freeRecords  (s : State) : (s.attemptAgain).freeRecords = s.freeRecords := by
  unfold State.attemptAgain; (repeat' split) <;> simp
@[simp] theorem attemptAgain_records  (s : State) : (s.attemptAgain).records = s.records := by
  unfold State.attemptAgain; (repeat' split) <;> simp
@[simp] theorem attemptAgain_ports  (s : State) : (s.attemptAgain).ports = s.ports := by
  unfold State.attemptAgain; (repeat' split) <;> simp
@[simp] theorem attemptAgain_engine  (s : State) : (s.attemptAgain).engine = s.engine := by
  unfold State.attemptAgain; (repeat' split) <;> simp
@[simp] theorem attemptAgain_claim  (s : State) : (s.attemptAgain).claim = s.claim := by
  unfold State.attemptAgain; (repeat' split) <;> simp
@[simp] theorem attemptAgain_exc  (s : State) : (s.attemptAgain).exc = s.exc := by
  unfold State.attemptAgain; (repeat' split) <;> simp
@[simp] theorem attemptAgain_check  (s : State) : (s.attemptAgain).check = s.check := by
  unfold State.attemptAgain; (repeat' split) <;> simp
@[simp] theorem attemptAgain_freeDraws  (s : State) : (s.attemptAgain).freeDraws = s.freeDraws := by
  unfold State.attemptAgain; (repeat' split) <;> simp
@[simp] theorem attemptAgain_pending  (s : State) : (s.attemptAgain).pending = s.pending := by
  unfold State.attemptAgain; (repeat' split) <;> simp

@[simp] theorem dropNotice_timebase (r : RecordNo) (s : State) : (s.dropNotice r).timebase = s.timebase := by
  simp [State.dropNotice]
@[simp] theorem dropNotice_straps (r : RecordNo) (s : State) : (s.dropNotice r).straps = s.straps := by
  simp [State.dropNotice]
@[simp] theorem dropNotice_station (r : RecordNo) (s : State) : (s.dropNotice r).station = s.station := by
  simp [State.dropNotice]
@[simp] theorem dropNotice_entries (r : RecordNo) (s : State) : (s.dropNotice r).entries = s.entries := by
  simp [State.dropNotice]
@[simp] theorem dropNotice_defaults (r : RecordNo) (s : State) : (s.dropNotice r).defaults = s.defaults := by
  simp [State.dropNotice]
@[simp] theorem dropNotice_deques (r : RecordNo) (s : State) : (s.dropNotice r).deques = s.deques := by
  simp [State.dropNotice]
@[simp] theorem dropNotice_mem (r : RecordNo) (s : State) : (s.dropNotice r).mem = s.mem := by
  simp [State.dropNotice]
@[simp] theorem dropNotice_ecc (r : RecordNo) (s : State) : (s.dropNotice r).ecc = s.ecc := by
  simp [State.dropNotice]
@[simp] theorem dropNotice_ports (r : RecordNo) (s : State) : (s.dropNotice r).ports = s.ports := by
  simp [State.dropNotice]
@[simp] theorem dropNotice_engine (r : RecordNo) (s : State) : (s.dropNotice r).engine = s.engine := by
  simp [State.dropNotice]
@[simp] theorem dropNotice_claim (r : RecordNo) (s : State) : (s.dropNotice r).claim = s.claim := by
  simp [State.dropNotice]
@[simp] theorem dropNotice_check (r : RecordNo) (s : State) : (s.dropNotice r).check = s.check := by
  simp [State.dropNotice]
@[simp] theorem dropNotice_follow (r : RecordNo) (s : State) : (s.dropNotice r).follow = s.follow := by
  simp [State.dropNotice]
@[simp] theorem dropNotice_freeDraws (r : RecordNo) (s : State) : (s.dropNotice r).freeDraws = s.freeDraws := by
  simp [State.dropNotice]
@[simp] theorem dropNotice_pending (r : RecordNo) (s : State) : (s.dropNotice r).pending = s.pending := by
  simp [State.dropNotice]

@[simp] theorem notify_timebase (l : List Byte) (s : State) : (s.notify l).timebase = s.timebase := by
  simp [State.notify]
@[simp] theorem notify_straps (l : List Byte) (s : State) : (s.notify l).straps = s.straps := by
  simp [State.notify]
@[simp] theorem notify_station (l : List Byte) (s : State) : (s.notify l).station = s.station := by
  simp [State.notify]
@[simp] theorem notify_entries (l : List Byte) (s : State) : (s.notify l).entries = s.entries := by
  simp [State.notify]
@[simp] theorem notify_defaults (l : List Byte) (s : State) : (s.notify l).defaults = s.defaults := by
  simp [State.notify]
@[simp] theorem notify_deques (l : List Byte) (s : State) : (s.notify l).deques = s.deques := by
  simp [State.notify]
@[simp] theorem notify_mem (l : List Byte) (s : State) : (s.notify l).mem = s.mem := by
  simp [State.notify]
@[simp] theorem notify_ecc (l : List Byte) (s : State) : (s.notify l).ecc = s.ecc := by
  simp [State.notify]
@[simp] theorem notify_freeCells (l : List Byte) (s : State) : (s.notify l).freeCells = s.freeCells := by
  simp [State.notify]
@[simp] theorem notify_freeRecords (l : List Byte) (s : State) : (s.notify l).freeRecords = s.freeRecords := by
  simp [State.notify]
@[simp] theorem notify_records (l : List Byte) (s : State) : (s.notify l).records = s.records := by
  simp [State.notify]
@[simp] theorem notify_ports (l : List Byte) (s : State) : (s.notify l).ports = s.ports := by
  simp [State.notify]
@[simp] theorem notify_engine (l : List Byte) (s : State) : (s.notify l).engine = s.engine := by
  simp [State.notify]
@[simp] theorem notify_claim (l : List Byte) (s : State) : (s.notify l).claim = s.claim := by
  simp [State.notify]
@[simp] theorem notify_check (l : List Byte) (s : State) : (s.notify l).check = s.check := by
  simp [State.notify]
@[simp] theorem notify_follow (l : List Byte) (s : State) : (s.notify l).follow = s.follow := by
  simp [State.notify]
@[simp] theorem notify_freeDraws (l : List Byte) (s : State) : (s.notify l).freeDraws = s.freeDraws := by
  simp [State.notify]
@[simp] theorem notify_pending (l : List Byte) (s : State) : (s.notify l).pending = s.pending := by
  simp [State.notify]

@[simp] theorem placeFor_timebase (k : Claim) (n : Building) (s : State) : (s.placeFor k n).timebase = s.timebase := by
  unfold State.placeFor
  (repeat' split) <;> (try rename_i ha) <;> first | (simp; done) | simp [arrive_eq_snd ha]
@[simp] theorem placeFor_straps (k : Claim) (n : Building) (s : State) : (s.placeFor k n).straps = s.straps := by
  unfold State.placeFor
  (repeat' split) <;> (try rename_i ha) <;> first | (simp; done) | simp [arrive_eq_snd ha]
@[simp] theorem placeFor_station (k : Claim) (n : Building) (s : State) : (s.placeFor k n).station = s.station := by
  unfold State.placeFor
  (repeat' split) <;> (try rename_i ha) <;> first | (simp; done) | simp [arrive_eq_snd ha]
@[simp] theorem placeFor_entries (k : Claim) (n : Building) (s : State) : (s.placeFor k n).entries = s.entries := by
  unfold State.placeFor
  (repeat' split) <;> (try rename_i ha) <;> first | (simp; done) | simp [arrive_eq_snd ha]
@[simp] theorem placeFor_defaults (k : Claim) (n : Building) (s : State) : (s.placeFor k n).defaults = s.defaults := by
  unfold State.placeFor
  (repeat' split) <;> (try rename_i ha) <;> first | (simp; done) | simp [arrive_eq_snd ha]
@[simp] theorem placeFor_mem (k : Claim) (n : Building) (s : State) : (s.placeFor k n).mem = s.mem := by
  unfold State.placeFor
  (repeat' split) <;> (try rename_i ha) <;> first | (simp; done) | simp [arrive_eq_snd ha]
@[simp] theorem placeFor_ecc (k : Claim) (n : Building) (s : State) : (s.placeFor k n).ecc = s.ecc := by
  unfold State.placeFor
  (repeat' split) <;> (try rename_i ha) <;> first | (simp; done) | simp [arrive_eq_snd ha]
@[simp] theorem placeFor_ports (k : Claim) (n : Building) (s : State) : (s.placeFor k n).ports = s.ports := by
  unfold State.placeFor
  (repeat' split) <;> (try rename_i ha) <;> first | (simp; done) | simp [arrive_eq_snd ha]
@[simp] theorem placeFor_engine (k : Claim) (n : Building) (s : State) : (s.placeFor k n).engine = s.engine := by
  unfold State.placeFor
  (repeat' split) <;> (try rename_i ha) <;> first | (simp; done) | simp [arrive_eq_snd ha]
@[simp] theorem placeFor_claim (k : Claim) (n : Building) (s : State) : (s.placeFor k n).claim = s.claim := by
  unfold State.placeFor
  (repeat' split) <;> (try rename_i ha) <;> first | (simp; done) | simp [arrive_eq_snd ha]
@[simp] theorem placeFor_check (k : Claim) (n : Building) (s : State) : (s.placeFor k n).check = s.check := by
  unfold State.placeFor
  (repeat' split) <;> (try rename_i ha) <;> first | (simp; done) | simp [arrive_eq_snd ha]
@[simp] theorem placeFor_freeDraws (k : Claim) (n : Building) (s : State) : (s.placeFor k n).freeDraws = s.freeDraws := by
  unfold State.placeFor
  (repeat' split) <;> (try rename_i ha) <;> first | (simp; done) | simp [arrive_eq_snd ha]
@[simp] theorem placeFor_pending (k : Claim) (n : Building) (s : State) : (s.placeFor k n).pending = s.pending := by
  unfold State.placeFor
  (repeat' split) <;> (try rename_i ha) <;> first | (simp; done) | simp [arrive_eq_snd ha]

@[simp] theorem placeNotice_timebase (n : Building) (s : State) : (s.placeNotice n).timebase = s.timebase := by
  unfold State.placeNotice; (repeat' split) <;> simp
@[simp] theorem placeNotice_straps (n : Building) (s : State) : (s.placeNotice n).straps = s.straps := by
  unfold State.placeNotice; (repeat' split) <;> simp
@[simp] theorem placeNotice_station (n : Building) (s : State) : (s.placeNotice n).station = s.station := by
  unfold State.placeNotice; (repeat' split) <;> simp
@[simp] theorem placeNotice_entries (n : Building) (s : State) : (s.placeNotice n).entries = s.entries := by
  unfold State.placeNotice; (repeat' split) <;> simp
@[simp] theorem placeNotice_defaults (n : Building) (s : State) : (s.placeNotice n).defaults = s.defaults := by
  unfold State.placeNotice; (repeat' split) <;> simp
@[simp] theorem placeNotice_mem (n : Building) (s : State) : (s.placeNotice n).mem = s.mem := by
  unfold State.placeNotice; (repeat' split) <;> simp
@[simp] theorem placeNotice_ecc (n : Building) (s : State) : (s.placeNotice n).ecc = s.ecc := by
  unfold State.placeNotice; (repeat' split) <;> simp
@[simp] theorem placeNotice_ports (n : Building) (s : State) : (s.placeNotice n).ports = s.ports := by
  unfold State.placeNotice; (repeat' split) <;> simp
@[simp] theorem placeNotice_engine (n : Building) (s : State) : (s.placeNotice n).engine = s.engine := by
  unfold State.placeNotice; (repeat' split) <;> simp
@[simp] theorem placeNotice_claim (n : Building) (s : State) : (s.placeNotice n).claim = s.claim := by
  unfold State.placeNotice; (repeat' split) <;> simp
@[simp] theorem placeNotice_check (n : Building) (s : State) : (s.placeNotice n).check = s.check := by
  unfold State.placeNotice; (repeat' split) <;> simp
@[simp] theorem placeNotice_freeDraws (n : Building) (s : State) : (s.placeNotice n).freeDraws = s.freeDraws := by
  unfold State.placeNotice; (repeat' split) <;> simp
@[simp] theorem placeNotice_pending (n : Building) (s : State) : (s.placeNotice n).pending = s.pending := by
  unfold State.placeNotice; (repeat' split) <;> simp

/-- All that `placeNotice` may change. -/
theorem placeNotice_shape (n : Building) (s : State) :
    s.placeNotice n = { s with
      deques := (s.placeNotice n).deques, freeCells := (s.placeNotice n).freeCells,
      freeRecords := (s.placeNotice n).freeRecords, records := (s.placeNotice n).records,
      exc := (s.placeNotice n).exc, follow := (s.placeNotice n).follow } := by
  ext1 <;> simp

end Sys2Proof.Machine
end

