-- ==== Sys2Proof/Laws/Idle.lean ====
section
/-! SUPPORT. What the block can do by itself on an empty queue, that a group taken late is taken as one that comes, and
that an admission that is finished leaves its unit IDLE. -/

namespace Sys2Proof.Machine

open Sys2Proof

/-! ## The empty queue -/

/-- An end of frame that waits is due when the unit of its port is IDLE. -/
theorem mem_endsDue {s : State} {w : Work} : w ∈ s.endsDue ↔ ∃ p, EndDue s p ∧ w = .line p := by
  have one : ∀ p, w ∈ s.endWork p ↔ EndDue s p ∧ w = .line p := by
    intro p
    unfold State.endWork State.lineWork EndDue PortState.takes
    cases hl : (s.port p).lineWaits with
    | nil => simp
    | cons g rest => cases g <;> cases (s.port p).admission <;> simp
  simp only [State.endsDue, List.mem_append, one]
  constructor
  · rintro ((h | h) | h) <;> exact ⟨_, h⟩
  · rintro ⟨p, h⟩
    cases p
    · exact .inl (.inl h)
    · exact .inl (.inr h)
    · exact .inr h

theorem mem_admissionWork {s : State} {p : Port} {w : Work} :
    w ∈ s.admissionWork p ↔ ∃ a, (s.port p).admission = .admitting a ∧ w = .admission p := by
  unfold State.admissionWork
  cases (s.port p).admission <;> simp

theorem mem_lineWork {s : State} {p : Port} {w : Work} :
    w ∈ s.lineWork p ↔ ∃ g rest, (s.port p).lineWaits = g :: rest ∧ (s.port p).takes g = true ∧ w = .line p := by
  unfold State.lineWork
  cases (s.port p).lineWaits with
  | nil => simp
  | cons g rest => by_cases h : (s.port p).takes g = true <;> simp [h]

/-- The events open besides a tick: those owed, a step of each admission under way, and the first group that waits at
each port, once its receiver can take it. -/
theorem mem_openWork {s : State} {w : Work} :
    w ∈ s.openWork ↔ (∃ c ∈ s.follow, w = .owed c) ∨
      (∃ p a, (s.port p).admission = .admitting a ∧ w = .admission p) ∨
      ∃ p g rest, (s.port p).lineWaits = g :: rest ∧ (s.port p).takes g = true ∧ w = .line p := by
  simp only [State.openWork, List.mem_append, List.mem_map, mem_admissionWork, mem_lineWork]
  constructor
  · rintro ((⟨c, hc, rfl⟩ | ((h | h) | h)) | ((h | h) | h))
    · exact .inl ⟨c, hc, rfl⟩
    · exact .inr (.inl ⟨_, h⟩)
    · exact .inr (.inl ⟨_, h⟩)
    · exact .inr (.inl ⟨_, h⟩)
    · exact .inr (.inr ⟨_, h⟩)
    · exact .inr (.inr ⟨_, h⟩)
    · exact .inr (.inr ⟨_, h⟩)
  · rintro (⟨c, hc, rfl⟩ | ⟨p, h⟩ | ⟨p, h⟩)
    · exact .inl (.inl ⟨c, hc, rfl⟩)
    · cases p
      · exact .inl (.inr (.inl (.inl h)))
      · exact .inl (.inr (.inl (.inr h)))
      · exact .inl (.inr (.inr h))
    · cases p
      · exact .inr (.inl (.inl h))
      · exact .inr (.inl (.inr h))
      · exact .inr (.inr h)

/-- Of the things there are to do, one is done: the only one with no value drawn, one of several with one. -/
theorem doOneOf_cases (w : Work) (others : List Work) (s : State) :
    (others = [] ∧ s.doOneOf w others = s.doWork w) ∨ ∃ x ∈ w :: others, s.doOneOf w others = s.drawn.doWork x := by
  unfold State.doOneOf
  cases others with
  | nil => exact .inl ⟨rfl, rfl⟩
  | cons v vs =>
    refine .inr ⟨_, ?_, rfl⟩
    rw [List.getD_eq_getElem?_getD]
    cases hg : (w :: v :: vs)[Config.nextWork s.freeDraws % ((v :: vs).length + 1)]? with
    | none => exact List.mem_cons_self
    | some x => exact List.mem_of_getElem? hg

/-- With nothing open, the timebase ticks. -/
theorem idle_of_none {s : State} (he : s.endsDue = []) (h : s.openWork = []) : s.idle = .next s.tick := by
  simp [State.idle, State.doOneOf, State.doWork, he, h]

/-- An end of frame that is due is taken next (R68). -/
theorem idle_of_endDue {s : State} {p : Port} (h : EndDue s p) :
    ∃ q, EndDue s q ∧ (s.idle = .next (s.takeWaiting q) ∨ s.idle = .next (s.drawn.takeWaiting q)) := by
  have hm : Work.line p ∈ s.endsDue := mem_endsDue.mpr ⟨p, h, rfl⟩
  unfold State.idle
  cases he : s.endsDue with
  | nil => rw [he] at hm; cases hm
  | cons w ws =>
    have due : ∀ x ∈ w :: ws, ∃ q, EndDue s q ∧ x = .line q := fun x hx => mem_endsDue.mp (he ▸ hx)
    rcases doOneOf_cases w ws s with ⟨-, h1⟩ | ⟨x, hx, h1⟩
    · obtain ⟨q, hq, rfl⟩ := due w (by simp)
      exact ⟨q, hq, .inl h1⟩
    · obtain ⟨q, hq, rfl⟩ := due x hx
      exact ⟨q, hq, .inr h1⟩

/-- The only end of frame that is due is taken, and no value is drawn (R68). -/
theorem idle_of_oneEndDue {s : State} {p : Port} (h : EndDue s p) (ho : ∀ q, q ≠ p → ¬ EndDue s q) :
    s.idle = .next (s.takeWaiting p) := by
  have none : ∀ q, ¬ EndDue s q → s.endWork q = [] := by
    intro q hq
    unfold State.endWork State.lineWork PortState.takes
    unfold EndDue at hq
    cases hl : (s.port q).lineWaits with
    | nil => simp
    | cons g rest => rw [hl] at hq; cases g <;> cases ha : (s.port q).admission <;> simp_all
  have this : s.endWork p = [.line p] := by
    obtain ⟨ha, hl⟩ := h
    unfold State.endWork State.lineWork PortState.takes
    cases hw : (s.port p).lineWaits with
    | nil => rw [hw] at hl; cases hl
    | cons g rest => rw [hw] at hl; cases hl; simp [ha]
  have all : s.endsDue = [.line p] := by
    unfold State.endsDue
    cases p
    · rw [this, none _ (ho .W (by decide)), none _ (ho .B (by decide))]; rfl
    · rw [this, none _ (ho .E (by decide)), none _ (ho .B (by decide))]; rfl
    · rw [this, none _ (ho .E (by decide)), none _ (ho .W (by decide))]; rfl
  simp [State.idle, all, State.doOneOf, State.doWork]

/-- With no end of frame due, the block ticks, takes an event it owes, makes a step of an admission, or takes a group
that waits. -/
theorem idle_cases {s : State} (h : ∀ p, ¬ EndDue s p) :
    s.idle = .next s.tick ∨ s.idle = .next s.drawn.tick ∨ (∃ c ∈ s.follow, s.idle = exec c s.drawn) ∨
      (∃ p a, (s.port p).admission = .admitting a ∧ s.idle = .next (s.drawn.admitStep p)) ∨
      ∃ p g rest, (s.port p).lineWaits = g :: rest ∧ g ≠ .finish ∧ s.idle = .next (s.drawn.takeWaiting p) := by
  have he : s.endsDue = [] :=
    List.eq_nil_iff_forall_not_mem.mpr fun w hw => by
      obtain ⟨p, hp, -⟩ := mem_endsDue.mp hw
      exact h p hp
  unfold State.idle
  rw [he]
  rcases doOneOf_cases .tick s.openWork s with ⟨-, h1⟩ | ⟨x, hx, h1⟩
  · exact .inl h1
  · rcases List.mem_cons.mp hx with rfl | hx
    · exact .inr (.inl h1)
    · rcases mem_openWork.mp hx with ⟨c, hc, rfl⟩ | ⟨p, a, ha, rfl⟩ | ⟨p, g, rest, hw, ht, rfl⟩
      · exact .inr (.inr (.inl ⟨c, hc, h1⟩))
      · exact .inr (.inr (.inr (.inl ⟨p, a, ha, h1⟩)))
      · refine .inr (.inr (.inr (.inr ⟨p, g, rest, hw, ?_, h1⟩)))
        rintro rfl
        refine h p ⟨?_, by simp [hw]⟩
        revert ht
        unfold PortState.takes
        cases (s.port p).admission <;> simp

/-- On an empty queue the block goes on by itself. -/
theorem step_of_empty {s : State} (h : s.pending = []) : step s = s.idle := by simp [step, h]

/-! ## The end of an admission (R68) -/

/-- The most steps left to a unit. -/
def Admitting.stepsLeft (a : Admitting) : Nat :=
  match a.next, a.nextTarget with
  | .append, _ => 8
  | .misdirect, _ => 2
  | .hopCheck, _ => 7
  | .lookup, _ => 6
  | .act, _ => 5
  | .place, some k => max 2 (5 - k)
  | .place, none => 1
  | .release, _ => 1

theorem Admitting.stepsLeft_le (a : Admitting) : a.stepsLeft ≤ 8 := by
  unfold Admitting.stepsLeft
  split <;> omega

@[simp] theorem admitNext_admission (p : Port) (a : Admitting) (n : AdmitStep) (s : State) :
    ((s.admitNext p a n).port p).admission = .admitting { a with next := n } := by
  simp [State.admitNext, State.setAdmission]

@[simp] theorem admissionRelease_admission (p : Port) (r : RecordNo) (s : State) :
    ((s.admissionRelease p r).port p).admission = .idle := by
  simp [State.admissionRelease, State.setAdmission]

/-- A step brings an admission nearer to its end. -/
theorem admitStep_progress {p : Port} {s : State} {a : Admitting} (ha : (s.port p).admission = .admitting a) :
    ((s.admitStep p).port p).admission = .idle ∨
      ∃ b, ((s.admitStep p).port p).admission = .admitting b ∧ b.stepsLeft < a.stepsLeft := by
  simp only [State.admitStep, ha]
  cases s.held? a.frame with
  | none => exact .inl (by simp)
  | some h =>
    obtain ⟨frame, read, path, result, target, next⟩ := a
    simp only [State.admitHeld]
    cases next
    case append => cases path <;> exact .inr ⟨_, admitNext_admission .., by simp [Admitting.stepsLeft]⟩
    case misdirect => exact .inr ⟨_, admitNext_admission .., by simp [Admitting.stepsLeft]⟩
    case hopCheck =>
      refine .inr ?_
      simp only [State.hopStep]
      split <;> exact ⟨_, admitNext_admission .., by simp [Admitting.stepsLeft]⟩
    case lookup =>
      refine .inr ?_
      simp only [State.lookupStep]
      exact ⟨_, admitNext_admission .., by simp [Admitting.stepsLeft]⟩
    case act =>
      cases result with
      | none => exact .inl (by simp)
      | some x =>
        refine .inr ?_
        simp only [State.actStep]
        split <;> exact ⟨_, admitNext_admission .., by simp [Admitting.stepsLeft]⟩
    case place =>
      cases result with
      | none => exact .inl (by simp)
      | some x =>
        cases target with
        | none => exact .inl (by simp)
        | some k =>
          refine .inr ?_
          simp only [State.placeStep]
          split
          · exact ⟨_, admitNext_admission .., by simp [Admitting.stepsLeft]⟩
          · split
            · rename_i hk
              refine ⟨_, admitNext_admission .., ?_⟩
              have := hk.2
              simp only [Admitting.stepsLeft, mostTargets] at this ⊢
              omega
            · exact ⟨_, admitNext_admission .., by simp [Admitting.stepsLeft]⟩
    case release => exact .inl (by simp)

/-- The steps an admission has left bring its unit to IDLE (R68). -/
theorem finishAdmission_idle_of_le {p : Port} {n : Nat} {s : State}
    (h : ∀ a, (s.port p).admission = .admitting a → a.stepsLeft ≤ n) :
    ((s.finishAdmission p n).port p).admission = .idle := by
  induction n generalizing s with
  | zero =>
    cases ha : (s.port p).admission with
    | idle => exact ha
    | admitting a => have := h a ha; revert this; unfold Admitting.stepsLeft; split <;> omega
  | succ n ih =>
    refine ih fun b hb => ?_
    cases ha : (s.port p).admission with
    | idle => rw [admitStep_of_idle ha, ha] at hb; cases hb
    | admitting a =>
      rcases admitStep_progress ha with hi | ⟨b', hb', hlt⟩
      · rw [hi] at hb; cases hb
      · rw [hb'] at hb; cases hb; exact Nat.le_of_lt_succ (Nat.lt_of_lt_of_le hlt (h a ha))

/-- An admission is over after eight steps: append, hop check, lookup, action, three targets, release (R68, R82). -/
@[simp] theorem finishAdmission_idle (p : Port) (s : State) : ((s.finishAdmission p 8).port p).admission = .idle :=
  finishAdmission_idle_of_le fun a _ => a.stepsLeft_le

end Sys2Proof.Machine
end

