-- ==== Sys2Proof/Laws/Line.lean ====
section
/-! SUPPORT. A group that a receiver takes late is taken as one that comes: the take neither looks at the link and the
waiting groups of its port nor changes them (R68). -/

namespace Sys2Proof.Machine

open Sys2Proof

/-- The ports of a state replaced. -/
def State.withPorts (x : PerPort PortState) (s : State) : State := { s with ports := x }

/-- What looks at no port acts beside the ports. -/
theorem report_withPorts (q : Request) (x : PerPort PortState) (s : State) :
    (s.withPorts x).report q = (s.report q).withPorts x := by
  have h : (s.withPorts x).exc = s.exc := rfl
  unfold State.report State.request
  rw [h]
  split
  · simp only
    split <;> rfl
  · rfl

theorem returnReceived_withPorts (r : RecordNo) (x : PerPort PortState) (s : State) :
    (s.withPorts x).returnReceived r = (s.returnReceived r).withPorts x := by
  have h : (s.withPorts x).record r = s.record r := rfl
  unfold State.returnReceived
  rw [h]
  cases s.record r <;> rfl

theorem storeByte_withPorts (r : RecordNo) (i : Nat) (b : Byte) (x : PerPort PortState) (s : State) :
    (s.withPorts x).storeByte r i b = (s.storeByte r i b).withPorts x := by
  have h : (s.withPorts x).record r = s.record r := rfl
  unfold State.storeByte
  rw [h]
  cases s.record r <;> rfl

theorem takeCell_withPorts (r : RecordNo) (x : PerPort PortState) (s : State) :
    (s.withPorts x).takeCell r = (s.takeCell r).map (State.withPorts x) := by
  have h1 : (s.withPorts x).record r = s.record r := rfl
  have h2 : (s.withPorts x).freeCells = s.freeCells := rfl
  unfold State.takeCell
  rw [h1, h2]
  cases s.freeCells <;> cases s.record r <;> simp
  split <;> rfl

/-- Port `p` with link and waiting groups replaced. -/
def State.withLine (p : Port) (l : LinkState) (w : List LineGroup) (s : State) : State :=
  s.updPort p (fun y => { y with link := l, lineWaits := w })

theorem withLine_eq (p : Port) (l : LinkState) (w : List LineGroup) (s : State) :
    s.withLine p l w = s.withPorts (s.ports.set p { s.port p with link := l, lineWaits := w }) := rfl

theorem setReceiver_withLine (p : Port) (l : LinkState) (w : List LineGroup) (x : Receiver) (s : State) :
    (s.withLine p l w).setReceiver p x = (s.setReceiver p x).withLine p l w := by
  simp only [State.withLine, State.setReceiver, State.updPort, setPort_port_same]
  simp only [State.setPort, PerPort.set_set]

theorem setAdmission_withLine (p : Port) (l : LinkState) (w : List LineGroup) (x : AdmissionUnit) (s : State) :
    (s.withLine p l w).setAdmission p x = (s.setAdmission p x).withLine p l w := by
  simp only [State.withLine, State.setAdmission, State.updPort, setPort_port_same]
  simp only [State.setPort, PerPort.set_set]

/-- An operation that looks at no port acts beside the line of port `p`. -/
theorem withLine_of_withPorts {f : State → State} (hf : ∀ x s, f (s.withPorts x) = (f s).withPorts x) (p : Port)
    (l : LinkState) (w : List LineGroup) (s : State) : f (s.withLine p l w) = (f s).withLine p l w := by
  have hp : (f s).ports = s.ports := by
    have : f s = (f s).withPorts s.ports := hf s.ports s
    rw [this]; rfl
  rw [withLine_eq, withLine_eq, hf, State.port, State.port, hp]

theorem report_withLine (p : Port) (l : LinkState) (w : List LineGroup) (q : Request) (s : State) :
    (s.withLine p l w).report q = (s.report q).withLine p l w :=
  withLine_of_withPorts (f := State.report q) (fun x s => report_withPorts q x s) p l w s

theorem returnReceived_withLine (p : Port) (l : LinkState) (w : List LineGroup) (r : RecordNo) (s : State) :
    (s.withLine p l w).returnReceived r = (s.returnReceived r).withLine p l w :=
  withLine_of_withPorts (f := State.returnReceived r) (fun x s => returnReceived_withPorts r x s) p l w s

theorem storeByte_withLine (p : Port) (l : LinkState) (w : List LineGroup) (r : RecordNo) (i : Nat) (b : Byte)
    (s : State) : (s.withLine p l w).storeByte r i b = (s.storeByte r i b).withLine p l w :=
  withLine_of_withPorts (f := State.storeByte r i b) (fun x s => storeByte_withPorts r i b x s) p l w s

theorem withLine_receiver (p : Port) (l : LinkState) (w : List LineGroup) (s : State) :
    ((s.withLine p l w).port p).receiver = (s.port p).receiver := by simp [State.withLine]

theorem beginFrame_withLine (p : Port) (l : LinkState) (w : List LineGroup) (s : State) :
    (s.withLine p l w).beginFrame p = (s.beginFrame p).withLine p l w := by
  have h : (s.withLine p l w).freeRecords = s.freeRecords := rfl
  have ht : (s.withLine p l w).timebase = s.timebase := rfl
  have hs : ∀ r x rest, { (s.withLine p l w).setRecord r x with freeRecords := rest } =
    State.withLine p l w { s.setRecord r x with freeRecords := rest } := fun _ _ _ => rfl
  unfold State.beginFrame
  rw [h, ht]
  split
  · split
    · rw [hs, setReceiver_withLine]
    · simp only [State.portReport, report_withLine, setReceiver_withLine]
  · simp only [State.portReport, report_withLine, setReceiver_withLine]

theorem giveUp_withLine (p : Port) (l : LinkState) (w : List LineGroup) (r : RecordNo) (c : ExcCode) (s : State) :
    (s.withLine p l w).giveUp p r c = (s.giveUp p r c).withLine p l w := by
  simp only [State.giveUp, State.portReport, report_withLine, returnReceived_withLine, setReceiver_withLine]

theorem takeCell_withLine (p : Port) (l : LinkState) (w : List LineGroup) (r : RecordNo) (s : State) :
    (s.withLine p l w).takeCell r = (s.takeCell r).map (State.withLine p l w) := by
  rw [withLine_eq, takeCell_withPorts]
  cases h : s.takeCell r with
  | none => rfl
  | some t =>
    have : t.ports = s.ports := by rw [takeCell_eq h]
    simp only [Option.map_some, withLine_eq, State.port, this]

theorem receiveByte_withLine (p : Port) (l : LinkState) (w : List LineGroup) (x : Reception) (b : Byte) (s : State) :
    (s.withLine p l w).receiveByte p x b = (s.receiveByte p x b).withLine p l w := by
  simp only [State.receiveByte, giveUp_withLine, storeByte_withLine, setReceiver_withLine, takeCell_withLine]
  split
  · rfl
  · split
    · split
      · cases s.takeCell x.record <;> simp [storeByte_withLine, setReceiver_withLine]
      · rfl
    · rfl

theorem endReception_withLine (p : Port) (l : LinkState) (w : List LineGroup) (x : Reception) (s : State) :
    (s.withLine p l w).endReception p x = (s.endReception p x).withLine p l w := by
  have h1 : (s.withLine p l w).record x.record = s.record x.record := rfl
  have h2 : (s.withLine p l w).mem = s.mem := rfl
  have h3 : ∀ r y, (s.withLine p l w).setRecord r y = (s.setRecord r y).withLine p l w := fun _ _ => rfl
  have h4 : (s.withLine p l w).station = s.station := rfl
  simp only [State.endReception, h1, h2]
  split
  · split
    · simp only [State.handOver, h3, h4, setReceiver_withLine, setAdmission_withLine]
    · rfl
    · simp only [report_withLine, returnReceived_withLine, setReceiver_withLine]
  · rfl

/-- The receiver's take of a group neither looks at link and waiting groups nor changes them. -/
theorem takeGroup_withLine (p : Port) (l : LinkState) (w : List LineGroup) (g : LineGroup) (s : State) :
    (s.withLine p l w).takeGroup p g = (s.takeGroup p g).withLine p l w := by
  cases g <;>
    simp only [State.takeGroup, State.takeStart, State.takeData, State.takeEnd, State.markDamage, withLine_receiver] <;>
    cases (s.port p).receiver <;>
    simp only [State.portReport, report_withLine, returnReceived_withLine, beginFrame_withLine, receiveByte_withLine,
      endReception_withLine, setReceiver_withLine]

/-- Of two changes of the line the second stands. -/
theorem withLine_withLine (p : Port) (l l' : LinkState) (w w' : List LineGroup) (s : State) :
    (s.withLine p l w).withLine p l' w' = s.withLine p l' w' := by
  simp only [State.withLine, State.updPort, setPort_port_same]
  simp only [State.setPort, PerPort.set_set]

end Sys2Proof.Machine
end

