-- ==== Sys2Proof/Laws/Memory.lean ====
section
/-! SUPPORT. The cell memory: what a write reads back as, and that every write keeps the canonical form. -/

namespace Sys2Proof.Machine

open Sys2Proof

/-- No entry stands at or below an address that lies below every entry's. -/
theorem Memory.read_of_lt {m : Memory} {a : Nat} (h : ∀ c ∈ m, a < c.1) : m.read a = Memory.unlisted := by
  induction m with
  | nil => rfl
  | cons c m ih =>
    obtain ⟨k, v⟩ := c
    have hk : a < k := h (k, v) (by simp)
    simp only [Memory.read]
    rw [if_neg (by omega)]
    exact ih fun c hc => h c (by simp [hc])

/-- Every address a write lists is the one written or one listed before. -/
theorem Memory.mem_write {m : Memory} {a : Nat} {b : Byte} {c : Host.Cell} (h : c ∈ m.write a b) :
    c ∈ m ∨ c = (a, b) ∧ b ≠ Memory.unlisted := by
  induction m with
  | nil =>
    simp only [Memory.write] at h
    split at h
    · simp at h
    · rename_i hb
      exact Or.inr ⟨by simpa using h, hb⟩
  | cons d m ih =>
    obtain ⟨k, v⟩ := d
    simp only [Memory.write] at h
    split at h
    · split at h
      · exact Or.inl h
      · rename_i hb
        rcases List.mem_cons.mp h with h | h
        · exact Or.inr ⟨h, hb⟩
        · exact Or.inl h
    · split at h
      · split at h
        · exact Or.inl (by simp [h])
        · rename_i hb
          rcases List.mem_cons.mp h with h | h
          · exact Or.inr ⟨h, hb⟩
          · exact Or.inl (by simp [h])
      · rcases List.mem_cons.mp h with h | h
        · exact Or.inl (by simp [h])
        · rcases ih h with h | h
          · exact Or.inl (by simp [h])
          · exact Or.inr h

/-- Reading after a write: the byte written there, and the old byte elsewhere. -/
theorem Memory.read_write {m : Memory} (hm : m.wf) (a a' : Nat) (b : Byte) :
    (m.write a b).read a' = if a' = a then b else m.read a' := by
  induction m with
  | nil =>
    by_cases hb : b = Memory.unlisted <;> by_cases ha : a' = a <;> simp [Memory.write, Memory.read, hb, ha, eq_comm]
    · exact Ne.symm ha
  | cons c m ih =>
    obtain ⟨k, v⟩ := c
    obtain ⟨hp, hc⟩ := hm
    rw [List.pairwise_cons] at hp
    have hrest : Memory.wf m := ⟨hp.2, fun c h => hc c (by simp [h])⟩
    have hlow : ∀ c ∈ m, k < c.1 := hp.1
    simp only [Memory.write]
    split
    · rename_i hak
      have hall : ∀ c ∈ ((k, v) :: m : Memory), a < c.1 := by
        intro c h
        rcases List.mem_cons.mp h with rfl | h
        · exact hak
        · exact lt_trans hak (hlow c h)
      split
      · rename_i hb
        split
        · rename_i ha; subst ha; rw [Memory.read_of_lt hall, hb]
        · rfl
      · by_cases ha : a' = a
        · simp [Memory.read, ha]
        · rw [if_neg ha, Memory.read, if_neg (Ne.symm ha)]
    · split
      · rename_i hak
        subst hak
        split
        · rename_i hb
          by_cases ha : a' = a
          · rw [if_pos ha, ha, hb]; exact Memory.read_of_lt hlow
          · rw [if_neg ha, Memory.read, if_neg (Ne.symm ha)]
        · by_cases ha : a' = a
          · simp [Memory.read, ha]
          · simp [Memory.read, ha, Ne.symm ha]
      · rename_i hlt hne
        simp only [Memory.read]
        by_cases hk : k = a'
        · subst hk
          rw [if_pos rfl, if_neg (by omega), if_pos rfl]
        · rw [if_neg hk, ih hrest, if_neg hk]

/-- A write inside the buffer keeps the canonical form. -/
theorem Memory.wf_write {m : Memory} (hm : m.wf) {a : Nat} (ha : a < Memory.size) (b : Byte) : (m.write a b).wf := by
  induction m with
  | nil =>
    by_cases hb : b = Memory.unlisted <;> simp [Memory.write, Memory.wf, hb, ha]
  | cons c m ih =>
    obtain ⟨k, v⟩ := c
    obtain ⟨hp, hc⟩ := hm
    have hp' := hp
    rw [List.pairwise_cons] at hp
    have hrest : Memory.wf m := ⟨hp.2, fun c h => hc c (by simp [h])⟩
    have hlow : ∀ c ∈ m, k < c.1 := hp.1
    simp only [Memory.write]
    split
    · rename_i hak
      split
      · exact ⟨hp', hc⟩
      · rename_i hb
        refine ⟨List.pairwise_cons.mpr ⟨?_, hp'⟩, ?_⟩
        · intro c h
          rcases List.mem_cons.mp h with rfl | h
          · exact hak
          · exact lt_trans hak (hlow c h)
        · intro c h
          rcases List.mem_cons.mp h with rfl | h
          · exact ⟨ha, hb⟩
          · exact hc c h
    · split
      · rename_i hak
        subst hak
        split
        · exact hrest
        · rename_i hb
          refine ⟨List.pairwise_cons.mpr ⟨hlow, hp.2⟩, ?_⟩
          intro c h
          rcases List.mem_cons.mp h with rfl | h
          · exact ⟨ha, hb⟩
          · exact hc c (by simp [h])
      · rename_i hlt hne
        have ihm := ih hrest
        refine ⟨List.pairwise_cons.mpr ⟨?_, ihm.1⟩, ?_⟩
        · intro c h
          rcases Memory.mem_write h with h | h
          · exact hlow c h
          · rw [h.1]; simp only; omega
        · intro c h
          rcases List.mem_cons.mp h with rfl | h
          · exact hc _ (by simp)
          · exact ihm.2 c h

/-- Every stored byte of a frame lies inside the buffer (R50). -/
theorem storedAddress_lt (cells : List CellNo) (i : Nat) : storedAddress cells i < Memory.size := by
  have h := (cellAt cells i).isLt
  have h2 := Nat.mod_lt i (show 0 < 128 by decide)
  simp only [storedAddress, Memory.size]
  omega

/-- Writing stored bytes keeps the canonical form. -/
theorem wf_writeStored {m : Memory} (hm : m.wf) (cells : List CellNo) (i : Nat) (bs : List Byte) :
    (writeStored cells i bs m).wf := by
  induction bs generalizing i m with
  | nil => exact hm
  | cons b bs ih => exact ih (Memory.wf_write hm (storedAddress_lt cells i) b) (i + 1)

/-- Writing stored bytes changes no byte outside their addresses. -/
theorem read_writeStored_of_ne {m : Memory} (hm : m.wf) (cells : List CellNo) (i : Nat) (bs : List Byte) (a : Nat)
    (ha : ∀ k < bs.length, a ≠ storedAddress cells (i + k)) : (writeStored cells i bs m).read a = m.read a := by
  induction bs generalizing i m with
  | nil => rfl
  | cons b bs ih =>
    simp only [writeStored]
    rw [ih (Memory.wf_write hm (storedAddress_lt cells i) b) (i + 1)]
    · rw [Memory.read_write hm, if_neg]
      simpa using ha 0 (by simp)
    · intro k hk
      have := ha (k + 1) (by simp; omega)
      rwa [show i + 1 + k = i + (k + 1) by omega]

@[simp] theorem readStored_length (cells : List CellNo) (m : Memory) (i n : Nat) :
    (readStored cells m i n).length = n := by
  induction n generalizing i with
  | zero => rfl
  | succ n ih => simp [readStored, ih]

end Sys2Proof.Machine
end

