-- ==== Sys2Proof/Laws/Orders.lean ====
section
/-! SUPPORT. The order that is due, said in the vocabulary of the statements; the operand codings read back; an UP
link; and how far a parse reads. -/

namespace Sys2Proof.Machine

open Sys2Proof

/-! ## The order that is due -/

/-- An order that is due and answers OK (R125). -/
theorem dealOrder_of_ok {o : Order} {greatest : Nat} {body : Body} {s t : State} {j : Job} {data : List Byte}
    (h : OrderDue s j o greatest) (hb : body j (s.settle (orderCommand o)) = (.result .ok data, t)) :
    s.dealOrder o greatest body = t.conclude j o.code .ok data := by
  obtain ⟨h1, h2, h3, h4⟩ := h
  rw [dealOrder_of_due h1 h2 h3 h4, runBody_of_ok h3 hb]

/-- An order that is due and is refused (R127). -/
theorem dealOrder_of_refused {o : Order} {greatest : Nat} {body : Body} {s t : State} {j : Job} {status : Status}
    {data : List Byte} (h : OrderDue s j o greatest) (h1 : status ≠ .ok) (h2 : status ≠ .noRoom)
    (hb : body j (s.settle (orderCommand o)) = (.result status data, t)) :
    s.dealOrder o greatest body =
      t.conclude { j with listEnd := if j.copy.stop then some .stop else none } o.code status data := by
  obtain ⟨a1, a2, a3, a4⟩ := h
  rw [dealOrder_of_due a1 a2 a3 a4, runBody_of_refused h1 h2 hb]

/-- An accepted reset order that is due (R127). -/
theorem dealOrder_of_reset {o : Order} {greatest : Nat} {body : Body} {s t : State} {j : Job}
    (h : OrderDue s j o greatest) (hb : body j (s.settle (orderCommand o)) = (.reset, t)) :
    s.dealOrder o greatest body = t.conclude { j with listEnd := some .reset, orderFrame := none } o.code .ok [] := by
  obtain ⟨h1, h2, h3, h4⟩ := h
  simp [dealOrder_of_due h1 h2 h3 h4, State.runBody, hb]

/-- A drain that must be waited for (R128). -/
theorem dealOrder_of_wait {o : Order} {greatest : Nat} {body : Body} {s t : State} {j : Job}
    (h : OrderDue s j o greatest) (hb : body j (s.settle (orderCommand o)) = (.wait, t)) :
    s.dealOrder o greatest body = { t with engine := .drainWait j } := by
  obtain ⟨h1, h2, h3, h4⟩ := h
  simp [dealOrder_of_due h1 h2 h3 h4, State.runBody, hb]

/-- Settling a debt leaves the holder. -/
@[simp] theorem holder?_settle (c : Instr) (s : State) : (s.settle c).holder? = s.holder? := rfl

/-- An order of the write group from the holder goes on to its own checks (R132). -/
theorem holderOnly_of_fromHolder {s : State} {j : Job} (h : FromHolder s j) (c : Instr) (body : Body) :
    holderOnly body j (s.settle c) = body j (s.settle c) :=
  holderOnly_of_holder h.1 h.2

/-! ## Operands read back -/

@[simp] theorem portOperand_code (p : Port) : portOperand p.code = some p := by cases p <;> rfl

@[simp] theorem dequeOperand_ofNat (d : DequeNo) : dequeOperand (BitVec.ofNat 8 d.val) = some d := by
  revert d; decide

@[simp] theorem generalOperand_ofNat (g : GeneralNo) : generalOperand (BitVec.ofNat 8 g.val) = some g := by
  revert g; decide

@[simp] theorem boolOperand_boolByte (b : Bool) : boolOperand (boolByte b) = some b := by cases b <;> rfl

@[simp] theorem insertionOperand_code (e : Insertion) : insertionOperand e.code = some e := by cases e <;> rfl

@[simp] theorem hopRuleOperand_code (r : HopRule) : hopRuleOperand r.code = some r := by cases r <;> rfl

@[simp] theorem policyOperand_code (c : Policy) : policyOperand c.code = some c := by cases c <;> rfl

theorem entryOperand_of_toNat {hi lo : Byte} {i : EntryNo} (h : (half hi lo).toNat = i.val) :
    entryOperand hi lo = some i := by
  simp [entryOperand, h, i.isLt]

theorem be16_half (hi lo : Byte) : be16 (half hi lo) = [hi, lo] := by
  simp only [be16, half, List.cons.injEq, and_true]
  constructor <;> ext i h <;> rw [BitVec.getElem_extractLsb']
  · exact (BitVec.getLsbD_append (x := hi) (y := lo)).trans (by simp [h])
  · exact (BitVec.getLsbD_append (x := hi) (y := lo)).trans (by simp [h])

/-- An index that an operand names is sent as that operand. -/
theorem indexBytes_of_toNat {hi lo : Byte} {i : EntryNo} (h : (half hi lo).toNat = i.val) : indexBytes i = [hi, lo] := by
  have : BitVec.ofNat 16 i.val = half hi lo := by rw [← h]; simp
  rw [indexBytes, this, be16_half]

/-! ## Links -/

@[simp] theorem runBroken_port (s : State) (p : Port) : (s.runBroken p).port p = { s.port p with link := .up 0 } := by
  simp [State.runBroken, State.setLink]

/-- Any valid group on an UP link breaks the invalid run (R103). -/
theorem LinkReady.group {s : State} {p : Port} (h : LinkReady s p) :
    s.validGroup p = s.runBroken p ∧ (s.port p).link.isUp = true := by
  obtain ⟨⟨n, h1⟩, -⟩ := h
  exact ⟨by simp [State.validGroup, h1, State.runBroken], by simp [h1, LinkState.isUp]⟩

/-- Whether a receiver can take a group is seen at the admission unit alone (R68). -/
theorem takes_runBroken (s : State) (p : Port) (g : LineGroup) :
    ((s.runBroken p).port p).takes g = (s.port p).takes g := by
  rw [runBroken_port]; rfl

/-- A group on an UP link before which none waits is taken in its own event, if the receiver can take it (R68). -/
theorem LinkReady.lineGroup {s : State} {p : Port} {g : LineGroup} (h : LinkReady s p)
    (ht : (s.port p).takes g = true) : s.lineGroup p g = (s.runBroken p).takeGroup p g := by
  have hw : ((s.runBroken p).port p).lineWaits = [] := by rw [runBroken_port]; exact h.2
  have hu : ((s.runBroken p).port p).link.isUp = true := by rw [runBroken_port]; rfl
  unfold State.lineGroup
  rw [h.group.1]
  simp only [hu, if_true]
  unfold State.reachReceiver
  rw [if_pos ⟨hw, (takes_runBroken s p g).trans ht⟩]

/-- A group on an UP link that cannot be taken at once waits (R68; entry 25). -/
theorem lineGroup_of_waits {s : State} {p : Port} {g : LineGroup} {n : Nat} (hl : (s.port p).link = .up n)
    (h : (s.port p).lineWaits ≠ [] ∨ (s.port p).takes g = false) : s.lineGroup p g = (s.runBroken p).waits p g := by
  have hv : s.validGroup p = s.runBroken p := by simp [State.validGroup, hl, State.runBroken]
  have hu : ((s.runBroken p).port p).link.isUp = true := by rw [runBroken_port]; rfl
  have hw : ((s.runBroken p).port p).lineWaits = (s.port p).lineWaits := by rw [runBroken_port]
  have hn : ¬ (((s.runBroken p).port p).lineWaits = [] ∧ ((s.runBroken p).port p).takes g = true) := by
    rw [hw, takes_runBroken]
    rintro ⟨h1, h2⟩
    rcases h with h | h
    · exact h h1
    · rw [h] at h2; cases h2
  unfold State.lineGroup
  rw [hv]
  simp only [hu, if_true]
  unfold State.reachReceiver
  rw [if_neg hn]
  rfl

/-! ## How far a parse reads -/

/-- A malformation is seen no later than at the last byte that can have been read. -/
theorem frameOrders_seen_le {why : ParseEnd} {seen readOn : Nat} (room at_ : Nat) (bytes : List Byte)
    (h : frameOrders room at_ bytes = .malformed why seen readOn) : seen ≤ readOn := by
  fun_induction frameOrders room at_ bytes with
  | case1 => cases h
  | case2 => cases h; omega
  | case3 => cases h; omega
  | case4 => cases h; omega
  | case5 => cases h
  | case6 _ _ _ _ _ _ _ _ _ hm ih => cases h; exact ih hm

/-- A malformed list is read up to a byte between the two that `Framing` gives (R124; entry 9). -/
theorem parseCells_of_malformed {s : State} {h : HeldFrame} {payload : List Byte} {why : ParseEnd} {seen readOn : Nat}
    (hf : framePayload payload = .malformed why seen readOn) :
    ∃ n, seen ≤ n ∧ n ≤ readOn ∧ s.parseCells h payload = h.cellsOfPayload n := by
  have hle : seen ≤ readOn := by
    unfold framePayload at hf
    split at hf
    · cases hf; exact Nat.le_refl 0
    · exact frameOrders_seen_le _ _ _ hf
  unfold State.parseCells
  rw [hf]
  dsimp only
  split
  · exact ⟨seen, Nat.le_refl _, hle, rfl⟩
  · exact ⟨min readOn (seen + Config.parseReadsOn why), by omega, by omega, rfl⟩

end Sys2Proof.Machine
end

