-- ==== Sys2Proof/Tests/Slice0.lean ====
section
/-! SUPPORT. Tests: what the well-formedness check refuses, codings written out from the manual's tables, single steps on
small states, and for every statement with hypotheses a state that meets them (`witness_` theorems). -/

namespace Sys2Proof.Tests

open Sys2Proof Sys2Proof.Machine

set_option Elab.async false

/-! ## Helpers -/

/-- The outcome is a next state that passes `f`. -/
def leads (o : Host.Outcome State Fault Refusal) (f : State → Bool) : Bool :=
  match o with
  | .next t => f t
  | _ => false

/-- One command on a state with an empty queue. -/
def run (c : Instr) (s : State) : Host.Outcome State Fault Refusal := step { s with pending := [c] }

/-- Hard reset, with port E changed. -/
def onE (f : PortState → PortState) : State := State.reset.updPort .E f

/-- Hard reset, with the link of E as given. -/
def linkE (x : LinkState) : State := onE (fun y => { y with link := x })

/-- The manager of these tests. -/
def manager : Address := 0x0D2

/-- A claim of the manager on port E, with 30 seconds to go at stamp 0. -/
def lease : Claim := ⟨manager, 30000000, .E, none, none⟩

/-- A job of the manager's own frame at its first order. -/
def job (os : List Order) : Job := ⟨none, ⟨manager, 0, 7, .order, 5, false, .E⟩, .own, os, 1, [], 0, none⟩

/-- Hard reset, with the order due in a list of one, sent by the holder. -/
def dueState (o : Order) : State := { State.reset with engine := .executing (job [o]), claim := some lease }

theorem dueState_due (o : Order) (n : Nat) (h : n ≤ 321) : OrderDue (dueState o) (job [o]) o n := by
  refine ⟨rfl, rfl, rfl, ?_⟩
  show 0 + n + (2 + 4 * 1) ≤ 1016
  omega

theorem dueState_holder (o : Order) : FromHolder (dueState o) (job [o]) := ⟨rfl, rfl⟩

/-- Whether an order is due is seen at the engine alone. -/
theorem due_of_engine {s t : State} {j : Job} {o : Order} {n : Nat} (d : OrderDue s j o n) (h : t.engine = s.engine) :
    OrderDue t j o n := ⟨h.trans d.1, d.2⟩

/-- Who the holder is is seen at the claim record alone. -/
theorem holder_of_claim {s t : State} {j : Job} (d : FromHolder s j) (h : t.claim = s.claim) : FromHolder t j :=
  ⟨d.1, (congrArg (Option.map Claim.holder) h).trans d.2⟩

/-! ## Well-formedness: one ill-formed term for each check -/

def tooLong : List Byte := List.replicate 256 0

theorem test_wf_operands_too_long : (Instr.identify tooLong).wf = false := by decide +kernel
theorem test_wf_operands_255 : (Instr.setDeque (List.replicate 255 0)).wf = true := by decide +kernel
theorem test_wf_table_operands_too_long : (Instr.readEntry tooLong []).wf = false := by decide +kernel
theorem test_wf_known_code_is_not_unknown : (Instr.unknownOrder 0x01 []).wf = false := by decide
theorem test_wf_unknown_code : (Instr.unknownOrder 0x7F [1, 2]).wf = true := by decide
theorem test_wf_unknown_too_long : (Instr.unknownOrder 0x7F tooLong).wf = false := by decide +kernel

def goodContent : Content := ⟨⟨0x4B0, 0x0F, 1⟩, ⟨.forward [5, 6], .tail, .decrement⟩⟩

theorem test_wf_upset_sound : (Instr.endOfFrame .E [.entry 3 (.sound goodContent)]).wf = true := by decide
theorem test_wf_upset_empty_classes :
    (Instr.endOfFrame .E [.entry 3 (.sound { goodContent with key := ⟨0x4B0, 0, 1⟩ })]).wf = false := by decide
theorem test_wf_upset_empty_ports :
    (Instr.engineTake [.entry 3 (.sound { goodContent with key := ⟨0x4B0, 1, 0⟩ })]).wf = false := by decide
theorem test_wf_upset_no_target :
    (Instr.readEntry [0, 3] [.entry 3 (.sound { goodContent with disposition := ⟨.forward [], .tail, .preserve⟩ })]).wf =
      false := by decide
theorem test_wf_upset_target_twice :
    (Instr.writeEntry [] [.entry 3 (.sound { goodContent with disposition := ⟨.forward [5, 5], .tail, .preserve⟩ })]).wf =
      false := by decide
theorem test_wf_upset_four_targets :
    (Instr.findEntry [] [.entry 3
      (.sound { goodContent with disposition := ⟨.forward [1, 2, 3, 4], .tail, .preserve⟩ })]).wf = false := by decide

/-! ## Codings, written out from chapter 11 and R142 -/

theorem test_no_word_spells_a_command : decodeTableWord 8 0x01 = none := rfl
theorem test_code_identify : orderCommand ⟨0x01, []⟩ = .identify [] := by decide
theorem test_code_claim : orderCommand ⟨0x02, [30]⟩ = .claim [30] := by decide
theorem test_code_write_entry : orderCommand ⟨0x11, [0, 1]⟩ = .writeEntry [0, 1] [] := by decide
theorem test_code_drain : orderCommand ⟨0x25, [3, 1]⟩ = .drainDeque [3, 1] := by decide
theorem test_code_retrain : orderCommand ⟨0x33, [2]⟩ = .retrainPort [2] := by decide
theorem test_code_reset_full : orderCommand ⟨0x71, []⟩ = .resetFull [] := by decide
theorem test_code_unknown : orderCommand ⟨0x26, [9]⟩ = .unknownOrder 0x26 [9] := by decide

/-- The check value of this CRC (entry 18): the nine characters 1 to 9. -/
theorem test_crc_check_value : crc [0x31, 0x32, 0x33, 0x34, 0x35, 0x36, 0x37, 0x38, 0x39] = 0xCBF43926 := by
  decide +kernel

/-- Tag 1010, destination 0x0D2, source 0x011, kind REPLY, class 7, hop 15, sequence 5, payload length 19 (11.1). -/
theorem test_header_bytes :
    Header.encode ⟨0x0D2, 0x011, .reply, false, 7, 15, 5⟩ 19 = [0xA0, 0xD2, 0x01, 0x18, 0xFE, 5, 0, 19] := by decide

theorem test_header_form_reserved_bit : headerFormGood [0xA0, 0xD2, 0x01, 0x19, 0xFE, 5, 0, 19] = false := by decide
theorem test_header_form_tag : headerFormGood [0xB0, 0xD2, 0x01, 0x18, 0xFE, 5, 0, 19] = false := by decide

/-- Two orders: CLAIM of 30 seconds, then IDENTIFY (11.2). -/
theorem test_order_list : framePayload [0x02, 1, 30, 0x01, 0] = .list [⟨0x02, [30]⟩, ⟨0x01, []⟩] := by decide
theorem test_order_overrun : framePayload [0x02, 2, 30] = .malformed .overrun 2 3 := by decide
theorem test_order_empty : framePayload [] = .malformed .overrun 0 0 := by decide
/-- A seventeenth order with both bytes of its head, and with the first one only. -/
theorem test_order_seventeenth :
    framePayload (List.replicate 34 0) = .malformed .seventeenth 32 34 ∧
      framePayload (List.replicate 33 0) = .malformed .seventeenth 32 33 := by decide +kernel

/-- FORWARD to 5 and 6 at the tail with DECREMENT: action 0, count 2, targets 5, 6, 0xFF (11.4). -/
theorem test_content_bytes :
    (Stored.sound goodContent).bytes = [0x04, 0xB0, 0x0F, 1, 0, 2, 5, 6, 0xFF, 0, 0] := by decide
theorem test_disposition_unused_target_byte : dispositionOperand 0 2 5 6 7 0 0 = none := by decide
theorem test_key_port_set_with_unused_bit : keyOperand 0 1 1 8 = none := by decide
theorem test_address_above_4095 : addressField 0x10 0 = none := by decide

/-! ## Single steps -/

theorem test_tick : leads (step State.reset) (fun t => t.timebase = 1 ∧ t.pending = []) = true := by decide +kernel

theorem test_straps_4095 : leads (run (.hardReset 4095) State.reset) (fun t => t.station = 4094) = true := by
  decide +kernel

theorem test_no_frame_on_a_down_link :
    leads (run (.startOfFrame .E) State.reset) (fun t => (t.port .E).receiver = .idle) = true := by decide +kernel

theorem test_start_takes_record_0 :
    leads (run (.startOfFrame .E) (linkE (.up 0))) (fun t =>
      (t.port .E).receiver = .receiving ⟨0, 0, false, []⟩ ∧ t.freeRecords.length = 1023) = true := by decide +kernel

theorem test_thirty_second_idle_group :
    leads (run (.idleCodeGroup .W) (State.reset.setLink .W (.sync 31))) (fun t =>
      (t.port .W).link = .up 0 ∧ t.exc.records.map (·.code) = [.linkUp]) = true := by decide +kernel

theorem test_link_up_is_recorded :
    leads (run (.alignmentAchieved .E) (linkE (.sync 31))) (fun t =>
      (t.port .E).link = .up 0 ∧ t.exc.records.map (·.code) = [.linkUp] ∧ t.exc.counter = 1) = true := by
  decide +kernel

theorem test_identify :
    leads (run (.identify []) (dueState ⟨0x01, []⟩)) (fun t =>
      t.engine = .replying { job [⟨0x01, []⟩] with
        results := [⟨0x01, .ok, [0x04, 0x28, 1, 0, 0, 0x00, 0xD2, 30, 0, 0, 0, 0]⟩]
        dataUsed := 12 } .executed .build) = true := by
  decide +kernel

theorem test_order_at_another_time :
    leads (run (.holdPort [1]) (dueState ⟨0x01, []⟩)) (fun t => (t.port .E).held = false) = true := by decide +kernel

theorem test_free_entry_advances_the_version :
    leads (run (.freeEntry [0, 3, 0, 0]) (dueState ⟨0x12, [0, 3, 0, 0]⟩)) (fun t => t.entry 3 = ⟨1, .free⟩) = true := by
  decide +kernel

theorem test_fixed_deque :
    leads (run (.pauseDeque [28]) (dueState ⟨0x23, [28]⟩)) (fun t =>
      (t.deque 28).state = .active ∧
        t.engine = .replying { job [⟨0x23, [28]⟩] with results := [⟨0x23, .fixedDeque, []⟩] } .executed .build) = true := by
  decide +kernel

theorem test_set_reporting_off :
    leads (run (.setReporting [0, 0, 0]) (dueState ⟨0x42, [0, 0, 0]⟩)) (fun t =>
      t.exc.mask = ⟨false, false, false, false, false⟩ ∧ t.exc.notices = false ∧ t.check.level = 0) = true := by
  decide +kernel

theorem test_lease_runs_out :
    leads (run .leaseExpiry { dueState ⟨0x01, []⟩ with timebase := 30000000 }) (fun t =>
      t.claim = none ∧ t.exc.records.map (·.code) = [.claimExpired]) = true := by decide +kernel

/-! ## Witnesses: queue, reset, links -/

/-- An UP link of E with the receiver, the admission unit and the waiting groups given. -/
def waitingE (x : Receiver) (a : AdmissionUnit) (w : List LineGroup) : State :=
  onE (fun y => { y with link := .up 2, receiver := x, admission := a, lineWaits := w })

/-- A unit at its release. -/
def releasing : AdmissionUnit := .admitting ⟨0, 0, .own, none, none, .release⟩

theorem waitingE_port_of_ne {x : Receiver} {a : AdmissionUnit} {w : List LineGroup} {q : Port} (h : q ≠ .E) :
    (waitingE x a w).port q = resetPort := by
  cases q
  · exact absurd rfl h
  · rfl
  · rfl

theorem witness_EmptyQueueStep :
    (∃ s : State, s.pending = [] ∧ s.follow = [] ∧ ∀ p, (s.port p).admission = .idle ∧ (s.port p).lineWaits = []) ∧
    (∃ s : State, s.pending = [] ∧ EndDue s .E ∧ ∀ q, q ≠ .E → ¬ EndDue s q) ∧
    (∃ s : State, s.pending = [] ∧ s.follow ≠ [] ∧ (s.port .E).admission ≠ .idle ∧ (s.port .E).lineWaits ≠ [] ∧
      ∀ p, ¬ EndDue s p) :=
  ⟨⟨State.reset, rfl, rfl, fun p => by cases p <;> exact ⟨rfl, rfl⟩⟩,
    ⟨waitingE .idle .idle [.finish, .start], rfl, ⟨rfl, rfl⟩, fun q hq h => by
      rw [EndDue, waitingE_port_of_ne hq] at h; exact nomatch h.2⟩,
    ⟨(waitingE .idle releasing [.finish]).raise .replyBuild, by decide +kernel, by decide +kernel, by decide +kernel,
      by decide +kernel, fun p h => by
        cases p
        · exact nomatch (show releasing = .idle from h.1)
        · exact nomatch (show (none : Option LineGroup) = some .finish from h.2)
        · exact nomatch (show (none : Option LineGroup) = some .finish from h.2)⟩⟩

theorem witness_HardReset : ∃ d e : DequeNo, d.val = 2 ∧ e.val = 27 := ⟨2, 27, by decide⟩

theorem witness_StationAddress :
    (∃ s j, OrderDue s j ⟨0x05, [0x0F, 0xFE]⟩ 2 ∧ FromHolder s j ∧ half 0x0F 0xFE = (4094 : Address).setWidth 16 ∧
      (4094 : Address) ≠ 4095) ∧
    (∃ s j, OrderDue s j ⟨0x70, []⟩ 0 ∧ FromHolder s j) ∧ (∃ s j, OrderDue s j ⟨0x71, []⟩ 0 ∧ FromHolder s j) :=
  ⟨⟨_, _, dueState_due _ _ (by decide), dueState_holder _, by decide, by decide⟩,
    ⟨_, _, dueState_due _ _ (by decide), dueState_holder _⟩, ⟨_, _, dueState_due _ _ (by decide), dueState_holder _⟩⟩

theorem witness_LinkEvents :
    (∃ s : State, (s.port .E).link.isUp = false ∧ (s.port .E).link = .sync 0) ∧
    (∃ s : State, (s.port .E).link = .sync 31) ∧ (∃ s : State, (s.port .E).quietUntil = some s.timebase) ∧
    (∃ s : State, (s.port .E).quietUntil = none ∧ (s.port .E).transmitter = .idle) ∧
    (∃ s : State, (s.port .E).quietUntil = none ∧ (s.port .E).transmitter = .sending 5 1 []) :=
  ⟨⟨linkE (.sync 0), by decide +kernel⟩, ⟨linkE (.sync 31), by decide +kernel⟩,
    ⟨onE (fun y => { y with quietUntil := some 0 }), by decide +kernel⟩, ⟨State.reset, by decide +kernel⟩,
    ⟨onE (fun y => { y with transmitter := .sending 5 1 [] }), by decide +kernel⟩⟩

/-- A reception into record 0 with cells `cells`, on an UP link of E. -/
def receiving (n k : Nat) (window : List Byte) (cells : List CellNo) : State :=
  { (onE (fun y => { y with link := .up n, receiver := .receiving ⟨0, k, false, window⟩ })).setRecord 0
      (.receiving ⟨cells, .E, 0⟩) with freeRecords := allRecords.tail }

/-- The reception of `receiving`. -/
def reception (k : Nat) (window : List Byte) : Reception := ⟨0, k, false, window⟩

theorem ready_receiving (n k : Nat) (window : List Byte) (cells : List CellNo) :
    LinkReady (receiving n k window cells) .E := ⟨⟨n, rfl⟩, rfl⟩

theorem ready_linkE (n : Nat) : LinkReady (linkE (.up n)) .E := ⟨⟨n, rfl⟩, rfl⟩

theorem linkE_not_receiving (l : LinkState) (x : Reception) : ((linkE l).port .E).receiver ≠ .receiving x :=
  fun h => nomatch (show Receiver.idle = .receiving x from h)

theorem witness_LinkLeavesUp :
    (∃ s : State, (s.port .E).link = .up 0) ∧ (∃ s : State, (s.port .E).link = .up 3) ∧
    (∃ s : State, (s.port .E).link = .up 3 ∧ (s.port .E).transmitter = .idle ∧
      ∀ x, (s.port .E).receiver ≠ .receiving x) ∧
    (∃ (s : State) (x : Reception) (f : ReceivingFrame), (s.port .E).link = .up 3 ∧ (s.port .E).transmitter = .idle ∧
      (s.port .E).receiver = .receiving x ∧ s.record x.record = .receiving f) :=
  ⟨⟨linkE (.up 0), rfl⟩, ⟨linkE (.up 3), rfl⟩, ⟨linkE (.up 3), rfl, rfl, linkE_not_receiving _⟩,
    ⟨receiving 3 0 [] [5], reception 0 [], ⟨[5], .E, 0⟩, by decide +kernel⟩⟩

theorem witness_CodeGroupRuns :
    (∃ s : State, (s.port .E).link = .down) ∧ (∃ s : State, (s.port .E).link = .sync 30) ∧
    (∃ s : State, (s.port .E).link = .sync 31) ∧ (∃ s : State, (s.port .E).link = .up 3) ∧
    (∃ s : State, (s.port .E).link = .up 2 ∧ (s.port .E).lineWaits = [] ∧ ∀ x, (s.port .E).receiver ≠ .receiving x) ∧
    (∃ (s : State) (x : Reception), (s.port .E).link = .up 2 ∧ (s.port .E).lineWaits = [] ∧
      (s.port .E).receiver = .receiving x) :=
  ⟨⟨State.reset, rfl⟩, ⟨linkE (.sync 30), rfl⟩, ⟨linkE (.sync 31), rfl⟩, ⟨linkE (.up 3), rfl⟩,
    ⟨linkE (.up 2), rfl, rfl, linkE_not_receiving _⟩, ⟨receiving 2 0 [] [], reception 0 [], rfl, rfl, rfl⟩⟩

/-- An UP link of E with an idle receiver, and the free-record queue as given. -/
def freeList (l : List RecordNo) : State := { linkE (.up 0) with freeRecords := l }

theorem freeList_ready (l : List RecordNo) : LinkReady (freeList l) .E := ⟨⟨_, rfl⟩, rfl⟩

theorem freeList_not_receiving (l : List RecordNo) (x : Reception) : ((freeList l).port .E).receiver ≠ .receiving x :=
  fun h => nomatch (show Receiver.idle = .receiving x from h)

theorem witness_StartOfFrame_taken :
    ∃ (s : State) (r : RecordNo) (rest : List RecordNo), LinkReady s .E ∧
      (∀ x, (s.port .E).receiver ≠ .receiving x) ∧ s.freeRecords = r :: rest ∧ s.freeRecords.length = 9 :=
  ⟨freeList [0, 1, 2, 3, 4, 5, 6, 7, 8], 0, [1, 2, 3, 4, 5, 6, 7, 8], freeList_ready _, freeList_not_receiving _,
    by decide +kernel⟩

theorem witness_StartOfFrame_refused :
    ∃ s : State, LinkReady s .E ∧ (∀ x, (s.port .E).receiver ≠ .receiving x) ∧ s.freeRecords.length = 8 :=
  ⟨freeList [0, 1, 2, 3, 4, 5, 6, 7], freeList_ready _, freeList_not_receiving _, by decide +kernel⟩

theorem witness_StartOfFrame_cut :
    ∃ (s : State) (x : Reception) (f : ReceivingFrame) (r : RecordNo) (rest : List RecordNo), LinkReady s .E ∧
      (s.port .E).receiver = .receiving x ∧ s.record x.record = .receiving f ∧
      s.freeRecords ++ [x.record] = r :: rest ∧ (r :: rest).length = 9 :=
  ⟨{ receiving 0 0 [] [] with freeRecords := [1, 2, 3, 4, 5, 6, 7, 8] }, reception 0 [], ⟨[], .E, 0⟩, 1,
    [2, 3, 4, 5, 6, 7, 8, 0], ⟨⟨_, rfl⟩, rfl⟩, by decide +kernel⟩

theorem witness_StartOfFrame_cut_and_refused :
    ∃ (s : State) (x : Reception) (f : ReceivingFrame), LinkReady s .E ∧ (s.port .E).receiver = .receiving x ∧
      s.record x.record = .receiving f ∧ s.freeRecords.length + 1 = 8 :=
  ⟨{ receiving 0 0 [] [] with freeRecords := [1, 2, 3, 4, 5, 6, 7] }, reception 0 [], ⟨[], .E, 0⟩, ⟨⟨_, rfl⟩, rfl⟩,
    by decide +kernel⟩

theorem witness_DataByteIsStored :
    (∃ s : State, LinkReady s .E ∧ ∀ x, (s.port .E).receiver ≠ .receiving x) ∧
    (∃ (s : State) (x : Reception), LinkReady s .E ∧ (s.port .E).receiver = .receiving x ∧ x.lineBytes < 1028 ∧
      x.window.length = 3) ∧
    (∃ (s : State) (x : Reception) (f : ReceivingFrame) (k : Nat), LinkReady s .E ∧
      (s.port .E).receiver = .receiving x ∧ x.lineBytes = k + 4 ∧ x.lineBytes = 1027 ∧ x.window = [1, 2, 3, 4] ∧
      s.record x.record = .receiving f ∧ k % 128 ≠ 0) ∧
    (∃ (s : State) (x : Reception) (f : ReceivingFrame) (k : Nat) (c : CellNo) (rest : List CellNo), LinkReady s .E ∧
      (s.port .E).receiver = .receiving x ∧ x.lineBytes = k + 4 ∧ x.lineBytes < 1028 ∧ x.window = [1, 2, 3, 4] ∧
      s.record x.record = .receiving f ∧ k % 128 = 0 ∧ s.freeCells = c :: rest ∧ s.freeCells.length = 17) ∧
    (∃ m : Memory, m.wf ∧ m ≠ []) :=
  ⟨⟨linkE (.up 0), ready_linkE _, linkE_not_receiving _⟩,
    ⟨receiving 0 3 [1, 2, 3] [], reception 3 [1, 2, 3], ready_receiving _ _ _ _, rfl, by decide, rfl⟩,
    ⟨receiving 0 1027 [1, 2, 3, 4] [0, 1, 2, 3, 4, 5, 6, 7], reception 1027 [1, 2, 3, 4], ⟨[0, 1, 2, 3, 4, 5, 6, 7], .E, 0⟩, 1023,
      ready_receiving _ _ _ _, by decide +kernel⟩,
    ⟨{ receiving 3 4 [1, 2, 3, 4] [] with freeCells := allCells.take 17 }, reception 4 [1, 2, 3, 4], ⟨[], .E, 0⟩, 0, 0,
      (allCells.take 17).tail, ⟨⟨_, rfl⟩, rfl⟩, by decide +kernel⟩,
    ⟨[(7, 1)], by decide⟩⟩

theorem witness_DataByteEndsReception :
    (∃ (s : State) (x : Reception) (f : ReceivingFrame) (k : Nat), LinkReady s .E ∧
      (s.port .E).receiver = .receiving x ∧ x.lineBytes = k + 4 ∧ x.lineBytes < 1028 ∧ x.window.length = 4 ∧
      s.record x.record = .receiving f ∧ k % 128 = 0 ∧ s.freeCells.length = 16) ∧
    (∃ (s : State) (x : Reception) (f : ReceivingFrame), LinkReady s .E ∧ (s.port .E).receiver = .receiving x ∧
      x.lineBytes = 1028 ∧ s.record x.record = .receiving f) :=
  ⟨⟨{ receiving 0 132 [1, 2, 3, 4] [5] with freeCells := allCells.take 16 }, reception 132 [1, 2, 3, 4], ⟨[5], .E, 0⟩, 128,
      ⟨⟨_, rfl⟩, rfl⟩, by decide +kernel⟩,
    ⟨receiving 0 1028 [1, 2, 3, 4] [5], reception 1028 [1, 2, 3, 4], ⟨[5], .E, 0⟩, ready_receiving _ _ _ _,
      by decide +kernel⟩⟩

/-- A reception on E that is about to end: the stored bytes are in cell 0, and the window is as given. -/
def ending (stored window : List Byte) : State :=
  { receiving 0 (stored.length + 4) window [0] with
    mem := writeStored [0] 0 stored []
    freeCells := allCells.tail }

/-- The stored bytes of a frame without payload, its header with the payload length field as given. -/
def bare (h : Header) (length : Nat) : List Byte := h.encode length

/-- A DATA frame for another station. -/
def toOther : Header := ⟨0x4B0, manager, .data, false, 2, 5, 9⟩

theorem witness_FailedEndOfFrame_waits :
    (∃ s : State, (s.port .E).link = .up 2 ∧ (s.port .E).lineWaits ≠ []) ∧
    (∃ s : State, (s.port .E).link = .up 2 ∧ (s.port .E).lineWaits = [] ∧ (s.port .E).admission ≠ .idle) ∧
    (∃ (s : State) (rest : List LineGroup), (s.port .E).lineWaits = .finish :: rest ∧ (s.port .E).admission = .idle) ∧
    (∃ (s : State) (rest : List LineGroup), (s.port .E).lineWaits = .start :: rest ∧ (s.port .E).admission ≠ .idle) :=
  ⟨⟨waitingE .idle releasing [.finish], by decide +kernel⟩, ⟨waitingE .idle releasing [], by decide +kernel⟩,
    ⟨waitingE .discarding .idle [.finish], [], by decide +kernel⟩,
    ⟨waitingE .idle releasing [.start, .finish], [.finish], by decide +kernel⟩⟩

theorem witness_FailedEndOfFrame :
    (∃ s : State, LinkReady s .E ∧ (s.port .E).admission = .idle ∧ ∀ x, (s.port .E).receiver ≠ .receiving x) ∧
    (∃ (s : State) (x : Reception) (f : ReceivingFrame), LinkReady s .E ∧ (s.port .E).admission = .idle ∧
      (s.port .E).receiver = .receiving x ∧ s.record x.record = .receiving f ∧ x.lineBytes = 11) ∧
    (∃ (s : State) (x : Reception) (f : ReceivingFrame), LinkReady s .E ∧ (s.port .E).admission = .idle ∧
      (s.port .E).receiver = .receiving x ∧ s.record x.record = .receiving f ∧ x.lineBytes = 12 ∧
      crcBytes (crc (readStored f.cells s.mem 0 (x.lineBytes - 4))) ≠ x.window) ∧
    (∃ (s : State) (x : Reception) (f : ReceivingFrame), LinkReady s .E ∧ (s.port .E).admission = .idle ∧
      (s.port .E).receiver = .receiving x ∧ s.record x.record = .receiving f ∧ x.lineBytes = 12 ∧ x.damaged = false ∧
      crcBytes (crc (readStored f.cells s.mem 0 (x.lineBytes - 4))) = x.window ∧
      headerFormGood (readStored f.cells s.mem 0 (x.lineBytes - 4)) = false) ∧
    (∃ (s : State) (x : Reception) (f : ReceivingFrame), LinkReady s .E ∧ (s.port .E).admission = .idle ∧
      (s.port .E).receiver = .receiving x ∧ s.record x.record = .receiving f ∧ x.lineBytes = 12 ∧ x.damaged = false ∧
      crcBytes (crc (readStored f.cells s.mem 0 (x.lineBytes - 4))) = x.window ∧
      headerFormGood (readStored f.cells s.mem 0 (x.lineBytes - 4)) = true ∧
      payloadLengthField (readStored f.cells s.mem 0 (x.lineBytes - 4)) ≠ x.lineBytes - 12) :=
  ⟨⟨linkE (.up 0), ready_linkE _, rfl, linkE_not_receiving _⟩,
    ⟨receiving 0 11 [1, 2, 3, 4] [0], reception 11 [1, 2, 3, 4], ⟨[0], .E, 0⟩, ready_receiving _ _ _ _,
      by decide +kernel⟩,
    ⟨ending (bare toOther 0) [1, 2, 3, 4], reception 12 [1, 2, 3, 4], ⟨[0], .E, 0⟩, ⟨⟨_, rfl⟩, rfl⟩,
      by decide +kernel⟩,
    ⟨ending [0, 0, 0, 0, 0, 0, 0, 0] (crcBytes (crc [0, 0, 0, 0, 0, 0, 0, 0])),
      reception 12 (crcBytes (crc [0, 0, 0, 0, 0, 0, 0, 0])), ⟨[0], .E, 0⟩, ⟨⟨_, rfl⟩, rfl⟩, by decide +kernel⟩,
    ⟨ending (bare toOther 3) (crcBytes (crc (bare toOther 3))), reception 12 (crcBytes (crc (bare toOther 3))),
      ⟨[0], .E, 0⟩, ⟨⟨_, rfl⟩, rfl⟩, by decide +kernel⟩⟩

/-! ## Witnesses: admission and the table -/

/-- A frame without payload and with header `h`, received whole and good on E. -/
def goodState (h : Header) : State := ending (bare h 0) (crcBytes (crc (bare h 0)))

def goodReception (h : Header) : Reception := reception 12 (crcBytes (crc (bare h 0)))

/-- An ORDER frame for the bridge, with hop budget 0. -/
def ownOrder : Header := ⟨0, manager, .order, true, 7, 0, 5⟩

/-- Admission of record 0, which holds a frame with header `h`, at the unit given; deque `d` as given. -/
def admitting (h : Header) (a : Admitting) (d : DequeNo) (q : Deque) : State :=
  (((linkE (.up 0)).setRecord 0 (.held ⟨[0], 8, .port .E, h, 0, 1⟩)).setAdmission .E (.admitting a)).setDeque d q

/-- Intake with the entries given. -/
def intakeWith (entries : List RecordNo) : Deque := ⟨(resetDequeConfig 28).1, .active, entries⟩

theorem witness_OwnOrderEntersIntake :
    ∃ (s : State) (x : Reception) (f : ReceivingFrame) (h : Header), GoodFrame s .E x f h ∧ h.dest = s.station ∧
      h.kind = .order ∧ (s.deque intake).config.limit = 4 ∧ (s.deque intake).state = .active ∧
      x.record ∉ (s.deque intake).entries ∧ (s.deque intake).entries.length < 4 :=
  ⟨goodState ownOrder, goodReception ownOrder, ⟨[0], .E, 0⟩, ownOrder, ⟨⟨⟨_, rfl⟩, rfl⟩, by decide +kernel⟩,
    by decide +kernel⟩

/-- The append, with one place left and with none. -/
theorem witness_OwnOrderEntersIntake_append (path : Path) :
    ∃ (s t : State) (a : Admitting) (h : HeldFrame), a.path = path ∧ a.next = .append ∧
      ((s.port .E).admission = .admitting a ∧ s.record a.frame = .held h ∧ a.frame ∉ (s.deque intake).entries ∧
        (s.deque intake).state = .active ∧ (s.deque intake).config.binding = .mgmt ∧
        (s.deque intake).entries.length + 1 = (s.deque intake).config.limit.toNat) ∧
      ((t.port .E).admission = .admitting a ∧ t.record a.frame = .held h ∧ a.frame ∉ (t.deque intake).entries ∧
        (t.deque intake).state = .active ∧ (t.deque intake).config.policy = .refuse ∧
        (t.deque intake).config.limit.toNat = (t.deque intake).entries.length) :=
  ⟨admitting ownOrder ⟨0, 0, path, none, none, .append⟩ 28 (intakeWith [1, 2, 3]),
    admitting ownOrder ⟨0, 0, path, none, none, .append⟩ 28 (intakeWith [1, 2, 3, 4]),
    ⟨0, 0, path, none, none, .append⟩, ⟨[0], 8, .port .E, ownOrder, 0, 1⟩, rfl, rfl,
    by cases path <;> decide +kernel, by cases path <;> decide +kernel⟩

/-- Every step that needs a HELD frame and the unit alone. -/
theorem witness_UnplacedFrameIsFreed_step (h : Header) (result : Option LookupResult) (next : AdmitStep) :
    ∃ (s : State) (a : Admitting) (f : HeldFrame), (s.port .E).admission = .admitting a ∧ s.record a.frame = .held f ∧
      f.header = h ∧ a.result = result ∧ a.next = next :=
  ⟨admitting h ⟨0, 0, .steered, result, none, next⟩ 28 (intakeWith []), ⟨0, 0, .steered, result, none, next⟩,
    ⟨[0], 8, .port .E, h, 0, 1⟩, rfl, by simp [admitting, State.record], rfl, rfl, rfl⟩

/-- A HELD frame with any count. -/
theorem witness_UnplacedFrameIsFreed_release (n : Nat) :
    ∃ (s : State) (h : HeldFrame), s.record 5 = .held h ∧ h.count = n :=
  ⟨State.reset.setRecord 5 (.held ⟨[9], 20, .internal, toOther, 0, n⟩), ⟨[9], 20, .internal, toOther, 0, n⟩,
    by simp [State.record], rfl⟩

theorem witness_UnplacedFrameIsFreed :
    (∃ (s : State) (x : Reception) (f : ReceivingFrame) (h : Header), GoodFrame s .E x f h ∧ h.dest = s.station ∧
      h.kind ≠ .order) ∧
    (∃ (s : State) (x : Reception) (f : ReceivingFrame) (h : Header), GoodFrame s .E x f h ∧ h.dest ≠ s.station ∧
      (h.dest = 4095 → h.kind ≠ .order) ∧ h.hop = 0) :=
  ⟨⟨goodState { ownOrder with kind := .reply }, goodReception { ownOrder with kind := .reply }, ⟨[0], .E, 0⟩,
      { ownOrder with kind := .reply }, ⟨⟨⟨_, rfl⟩, rfl⟩, by decide +kernel⟩, by decide +kernel⟩,
    ⟨goodState { toOther with hop := 0, dest := 4095 }, goodReception { toOther with hop := 0, dest := 4095 },
      ⟨[0], .E, 0⟩, { toOther with hop := 0, dest := 4095 }, ⟨⟨⟨_, rfl⟩, rfl⟩, by decide +kernel⟩, by decide +kernel⟩⟩

theorem reset_entry (i : EntryNo) : State.reset.entry i = ⟨0, .free⟩ := by
  simp [State.entry, State.reset, resetEntries]

theorem entry_of_entries {s t : State} (h : t.entries = s.entries) (i : EntryNo) : t.entry i = s.entry i := by
  unfold State.entry; rw [h]

theorem matching_of_entries {s t : State} (h : t.entries = s.entries) (d : Address) (c : BitVec 3) (p : Port) :
    t.matching d c p = s.matching d c p := by
  have e : t.entryMatches d c p = s.entryMatches d c p := by
    funext i; simp only [State.entryMatches, entry_of_entries h]
  rw [State.matching, e]; rfl

/-- A state with the table of hard reset matches nothing. -/
theorem matching_of_reset {s : State} (h : s.entries = State.reset.entries) (d : Address) (c : BitVec 3) (p : Port) :
    s.matching d c p = [] := by
  have e : ∀ i, s.entry i = ⟨0, .free⟩ := fun i => (entry_of_entries h i).trans (reset_entry i)
  simp [State.matching, State.entryMatches, e]

theorem search_of_reset {s : State} (h : s.entries = State.reset.entries) (d : Address) (c : BitVec 3) (p : Port) :
    s.search d c p = none := by
  unfold State.search; rw [matching_of_reset h]

theorem witness_SteeredFrameIsPlaced :
    ∃ (s : State) (x : Reception) (f : ReceivingFrame) (h : Header) (g : GeneralNo) (e : Insertion) (rule : HopRule),
      GoodFrame s .E x f h ∧ h.dest ≠ s.station ∧ (h.dest = 4095 → h.kind ≠ .order) ∧ h.hop ≠ 0 ∧
      s.search h.dest h.cls .E = none ∧ (s.defaults.get .E).disposition = ⟨.forward [g], e, rule⟩ ∧
      (s.deque (general g)).state = .active ∧ (s.deque (general g)).config.binding ≠ .port .E ∧
      x.record ∉ (s.deque (general g)).entries ∧
      (s.deque (general g)).entries.length < (s.deque (general g)).config.limit.toNat :=
  ⟨goodState toOther, goodReception toOther, ⟨[0], .E, 0⟩, toOther, 0, .tail, .decrement,
    ⟨⟨⟨_, rfl⟩, rfl⟩, by decide +kernel⟩, by decide, by decide, by decide,
    search_of_reset (by simp [goodState, ending, receiving, onE]) _ _ _,
    by decide +kernel⟩

/-- The copy of a keyed entry that forwards to deques 2, 3 and 4. -/
def threeTargets : LookupResult := ⟨.keyed 511, ⟨.forward [2, 3, 4], .head, .decrement⟩⟩

/-- A unit at target `k` of `threeTargets`. -/
def placing (k : Nat) : Admitting := ⟨0, 0, .steered, some threeTargets, some k, .place⟩

/-- Placement at the last target, deque 4, for any state and binding of that deque; and each outcome of it. -/
theorem witness_SteeredFrameIsPlaced_place (q : Deque) :
    ∃ (s : State) (a : Admitting) (h : HeldFrame) (x : LookupResult) (ts : List GeneralNo) (k : Nat) (g : GeneralNo),
      (s.port .E).admission = .admitting a ∧ a.next = .place ∧ a.result = some x ∧ a.nextTarget = some k ∧
      s.record a.frame = .held h ∧ x.disposition.action = .forward ts ∧ ts.length ≤ 3 ∧ 1 ≤ k ∧ ts[k - 1]? = some g ∧
      s.deque (general g) = q :=
  ⟨admitting toOther (placing 3) 4 q, placing 3, ⟨[0], 8, .port .E, toOther, 0, 1⟩, threeTargets, [2, 3, 4], 3, 4,
    rfl, rfl, rfl, rfl, by simp [admitting, placing, State.record], rfl, by decide, by decide, by decide,
    setDeque_deque_same _ _ _⟩

theorem witness_SteeredFrameIsPlaced_accepted :
    ((admitting toOther (placing 3) 4 ⟨⟨.port .W, some 0, 1, .shedNewest, 0, some false⟩, .paused, []⟩).arrive
      (general 4) 0 .head).1 = .accepted := by decide +kernel

theorem witness_SteeredFrameIsPlaced_lookup_and_act :
    (∃ (s : State) (a : Admitting) (h : HeldFrame), (s.port .E).admission = .admitting a ∧ a.next = .lookup ∧
      s.record a.frame = .held h) ∧
    (∃ (s : State) (a : Admitting) (h : HeldFrame) (x : LookupResult) (ts : List GeneralNo),
      (s.port .E).admission = .admitting a ∧ a.next = .act ∧ a.result = some x ∧
      x.disposition.action = .forward ts ∧ s.record a.frame = .held h) :=
  ⟨⟨admitting toOther ⟨0, 0, .steered, none, none, .lookup⟩ 28 (intakeWith []), ⟨0, 0, .steered, none, none, .lookup⟩,
      ⟨[0], 8, .port .E, toOther, 0, 1⟩, by decide +kernel⟩,
    ⟨admitting toOther ⟨0, 0, .steered, some threeTargets, none, .act⟩ 28 (intakeWith []),
      ⟨0, 0, .steered, some threeTargets, none, .act⟩, ⟨[0], 8, .port .E, toOther, 0, 1⟩, threeTargets, [2, 3, 4],
      by decide +kernel⟩⟩

/-- A damaged content with destination 0x4B0, class 2 and port E still in its key. -/
def damagedBytes : Vector Byte 11 := #v[0x04, 0xB0, 0x04, 1, 0, 1, 5, 0xFF, 0xFF, 0, 7]

/-- Hard reset, with entry 511 as given. -/
def withEntry (b : EntryBody) : State := State.reset.setEntry 511 ⟨3, b⟩

theorem matching_withEntry {x : Stored} {d : Address} {c : BitVec 3} {p : Port} (h : x.matches d c p = true) :
    (withEntry (.valid x)).matching d c p = [511] := by
  have e : (withEntry (.valid x)).entryMatches d c p = fun i => decide (i = 511) := by
    funext i
    by_cases hi : i = 511
    · subst hi; simp [State.entryMatches, withEntry, h]
    · simp [State.entryMatches, withEntry, setEntry_entry_of_ne _ _ hi, reset_entry, hi]
  rw [State.matching, e]
  decide +kernel

theorem witness_LookupRule :
    (∃ s : State, s.matching 0x4B0 2 .E = []) ∧
    (∃ (s : State) (i : EntryNo) (x : Content), s.matching 0x4B0 2 .E = [i] ∧ (s.entry i).body = .valid (.sound x)) ∧
    (∃ (s : State) (i : EntryNo) (b : Vector Byte 11), s.matching 0x4B0 2 .E = [i] ∧
      (s.entry i).body = .valid (.damaged b)) :=
  ⟨⟨State.reset, matching_of_reset rfl _ _ _⟩,
    ⟨withEntry (.valid (.sound goodContent)), 511, goodContent, matching_withEntry (by decide), by simp [withEntry]⟩,
    ⟨withEntry (.valid (.damaged damagedBytes)), 511, damagedBytes, matching_withEntry (by decide), by simp [withEntry]⟩⟩

theorem witness_UpsetsStrikeFirst :
    (∃ (s : State) (i : EntryNo) (x : Stored), (s.entry i).body = .valid x) ∧
    (∃ (s : State) (i : EntryNo), (s.entry i).body = .free) :=
  ⟨⟨withEntry (.valid (.sound goodContent)), 511, .sound goodContent, by simp [withEntry]⟩,
    ⟨State.reset, 511, by rw [reset_entry]⟩⟩

/-! ## Witnesses: egress and deques -/

/-- A stored frame of 20 bytes in cell 9 that came in on W at stamp 0. -/
def stored (count : Nat) : HeldFrame := ⟨[9], 20, .port .W, toOther, 0, count⟩

/-- A configuration of deque 1, with the dwell limit and the policy as given and a limit of 2. -/
def toE (dwell : BitVec 16) (policy : Policy) (retain : Bool) : DequeConfig :=
  ⟨.port .E, some 0, 2, policy, dwell, some retain⟩

/-- Link E UP, record 5 held once, and deque 1 as given. -/
def waiting (q : Deque) (now : Stamp) : State :=
  ({ linkE (.up 0) with timebase := now }.setRecord 5 (.held (stored 1))).setDeque 1 q

/-- Frame 5 waits in deque 1. -/
def oneWaits (dwell : BitVec 16) (now : Stamp) : State := waiting ⟨toE dwell .refuse true, .active, [5]⟩ now

/-- No cell of a state with the codes of hard reset has an error. -/
theorem sound_of_reset {s : State} (h : s.ecc = State.reset.ecc) (c : CellNo) : s.eccOf c = .sound := by
  unfold State.eccOf; rw [h]; simp [State.reset]

theorem witness_SelectionRule :
    (∃ s : State, s.candidate .E (controlDeque .E) = true) ∧
    (∃ s : State, s.select .E = some (.atLevel 0 1)) ∧ (∃ s : State, s.select .E = none) :=
  ⟨⟨State.reset.setDeque 29 ⟨(resetDequeConfig 29).1, .active, [5]⟩, by decide +kernel⟩,
    ⟨oneWaits 0 0, by decide +kernel⟩, ⟨State.reset, by decide +kernel⟩⟩

theorem witness_TakeAttempt_sent :
    ∃ (s t : State) (c : Choice) (h : HeldFrame), (s.port .E).transmitter = .idle ∧ (s.port .E).link.isUp = true ∧
      (s.settle (.takeAttempt .E)).select .E = some c ∧ (s.deque (c.deque .E)).entries = [5] ∧ s.record 5 = .held h ∧
      (s.deque (c.deque .E)).config.dwell = 0 ∧ (t.settle (.takeAttempt .E)).select .E = some c ∧
      t.record 5 = .held h ∧ (t.deque (c.deque .E)).config.dwell = 3 ∧ (t.timebase - h.stamp).toNat = 3 * 100 :=
  ⟨oneWaits 0 0, oneWaits 3 300, .atLevel 0 1, stored 1, by decide +kernel⟩

/-- A take from the control deque. -/
theorem witness_TakeAttempt_control :
    ∃ (s : State) (h : HeldFrame), (s.port .E).transmitter = .idle ∧ (s.port .E).link.isUp = true ∧
      (s.settle (.takeAttempt .E)).select .E = some .control ∧ (s.deque (controlDeque .E)).entries = [5] ∧
      s.record 5 = .held h :=
  ⟨(oneWaits 0 0).setDeque 29 ⟨(resetDequeConfig 29).1, .active, [5]⟩, stored 1, by decide +kernel⟩

theorem witness_TakeAttempt_dropped :
    ∃ (s : State) (c : Choice) (h : HeldFrame), (s.port .E).transmitter = .idle ∧ (s.port .E).link.isUp = true ∧
      (s.settle (.takeAttempt .E)).select .E = some c ∧ (s.deque (c.deque .E)).entries = [5] ∧ s.record 5 = .held h ∧
      (s.deque (c.deque .E)).config.dwell ≠ 0 ∧
      (s.deque (c.deque .E)).config.dwell.toNat * 100 + 1 = (s.timebase - h.stamp).toNat :=
  ⟨oneWaits 3 301, .atLevel 0 1, stored 1, by decide +kernel⟩

theorem witness_TakeAttempt_nothing :
    (∃ s : State, ∃ r d unread, (s.port .E).transmitter = .sending r d unread) ∧
    (∃ s : State, (s.port .E).link.isUp = false) ∧ (∃ s : State, (s.settle (.takeAttempt .E)).select .E = none) :=
  ⟨⟨State.reset.setTransmitter .E (.sending 5 1 [9]), 5, 1, [9], by decide +kernel⟩,
    ⟨State.reset, by decide +kernel⟩, ⟨State.reset, by decide +kernel⟩⟩

/-- E sends frame 5, taken from deque 1, which is as given, with its cell unread; record 6 is held as well. -/
def sendingFrom (q : Deque) : State :=
  ((waiting q 0).setRecord 6 (.held (stored 1))).setTransmitter .E (.sending 5 1 [9])

/-- Deque 1 empty, with retain as given. -/
def sending (retain : Bool) : State := sendingFrom ⟨toE 0 .refuse retain, .active, []⟩

theorem witness_TransmissionComplete (e : Ecc) :
    (∃ (s : State) (h : HeldFrame), (s.port .E).transmitter = .sending 5 1 [9] ∧ s.record 5 = .held h ∧
      s.eccOf 9 = .sound) ∧
    (∃ (s : State) (h : HeldFrame), (s.port .E).transmitter = .sending 5 1 ([] ++ 9 :: []) ∧ s.record 5 = .held h ∧
      s.eccOf 9 = e) :=
  ⟨⟨sending true, stored 1, by decide +kernel⟩, ⟨(sending true).setEcc 9 e, stored 1, by cases e <;> decide +kernel⟩⟩

theorem witness_CellReads (e : Ecc) :
    (∃ (s : State) (h : HeldFrame), (s.port .E).transmitter = .sending 5 1 ([] ++ 9 :: []) ∧ s.record 5 = .held h ∧
      s.eccOf 9 = e ∧ h.cells = [] ++ 9 :: []) ∧
    (∃ s : State, ∀ r d unread, (s.port .E).transmitter = .sending r d unread → (9 : CellNo) ∉ unread) :=
  ⟨⟨(sending true).setEcc 9 e, stored 1, by cases e <;> decide +kernel⟩,
    ⟨State.reset, fun _ _ _ h => nomatch (show Transmitter.idle = .sending _ _ _ from h)⟩⟩

/-- E sends as in `sendingFrom`, has its receiver as given, and record 7 is being received. -/
def sendingWith (q : Deque) (x : Receiver) : State :=
  ((sendingFrom q).setRecord 7 (.receiving ⟨[11], .E, 0⟩)).setReceiver .E x

/-- The frame being sent is aborted with deque 1 and the receiver as given. -/
theorem witness_AbortedTransmission (q : Deque) (x : Receiver) :
    ∃ (s : State) (h g : HeldFrame), (s.port .E).link.isUp = true ∧ (s.port .E).transmitter = .sending 5 1 [9] ∧
      (s.port .E).receiver = x ∧ s.record 7 = .receiving ⟨[11], .E, 0⟩ ∧ s.record 5 = .held h ∧ 1 ≤ h.count ∧
      s.record 6 = .held g ∧ s.deque 1 = q :=
  ⟨sendingWith q x, stored 1, stored 1, rfl, rfl, rfl, by simp [sendingWith, State.record],
    by simp [sendingWith, sendingFrom, waiting, State.record], by decide,
    by simp [sendingWith, sendingFrom, State.record], by simp [sendingWith, sendingFrom, waiting, State.deque]⟩

/-- A link that can leave UP by each of the three causes while a frame is being sent, with the receiver as given. -/
theorem witness_AbortedTransmission_causes (q : Deque) (x : Receiver) :
    ∃ (s : State) (j : Job) (h : HeldFrame), (s.port .E).link = .up 3 ∧ (s.port .E).transmitter = .sending 5 1 [9] ∧
      (s.port .E).receiver = x ∧ s.record 7 = .receiving ⟨[11], .E, 0⟩ ∧ s.record 5 = .held h ∧ 1 ≤ h.count ∧
      s.deque 1 = q ∧ OrderDue s j ⟨0x33, [Port.E.code]⟩ 0 ∧ FromHolder s j :=
  ⟨{ (sendingWith q x).setLink .E (.up 3) with engine := (dueState ⟨0x33, [Port.E.code]⟩).engine, claim := some lease },
    _, stored 1, rfl, rfl, rfl, by simp [sendingWith, State.record],
    by simp [sendingWith, sendingFrom, waiting, State.record], by decide,
    by simp [sendingWith, sendingFrom, waiting, State.deque],
    due_of_engine (dueState_due _ _ (by decide)) rfl, holder_of_claim (dueState_holder _) rfl⟩

/-- Each outcome of an arrival of record 7, and the two sheds. -/
theorem witness_ArrivalOutcomes :
    (State.reset.arrive 2 7 .tail).1 = .dequeClosed ∧
    ((waiting ⟨toE 0 .refuse true, .active, [7]⟩ 0).arrive 1 7 .tail).1 = .alreadyPresent ∧
    ((waiting ⟨toE 0 .refuse true, .paused, [5, 6]⟩ 0).arrive 1 7 .head).1 = .dequeFull ∧
    ((waiting ⟨toE 0 .refuse true, .active, [5]⟩ 0).arrive 1 7 .head).1 = .accepted ∧
    ((waiting ⟨toE 0 .shedOldest true, .active, [5, 6]⟩ 0).arrive 1 7 .tail).1 = .accepted ∧
    ((waiting ⟨toE 0 .shedNewest true, .active, [5, 6]⟩ 0).arrive 1 7 .tail).1 = .accepted := by
  decide +kernel

theorem witness_DrainRemoval :
    (∃ s : State, (s.deque 1).state = .draining .active 0 ∧ (s.deque 1).entries = [5, 6]) ∧
    (∃ (s : State) (j : Job) (o : Order), (s.deque 1).state = .draining .detached 254 ∧ (s.deque 1).entries = [5] ∧
      s.engine = .drainWait j ∧ j.current? = some o) :=
  ⟨⟨waiting ⟨toE 0 .refuse true, .draining .active 0, [5, 6]⟩ 0, by decide +kernel⟩,
    ⟨{ waiting ⟨toE 0 .refuse true, .draining .detached 254, [5]⟩ 0 with engine := .drainWait (job [⟨0x25, [1, 0]⟩]) },
      job [⟨0x25, [1, 0]⟩], ⟨0x25, [1, 0]⟩, by decide +kernel⟩⟩

/-- Accepted arrivals of a HELD record: with room, and with each shed of a HELD one. -/
theorem witness_ArrivalOutcomes_held :
    ((sendingFrom ⟨toE 0 .refuse true, .active, []⟩).arrive 1 5 .tail).1 = .accepted ∧
    ((sendingFrom ⟨toE 0 .shedOldest true, .active, 6 :: [7]⟩).arrive 1 5 .tail).1 = .accepted ∧
    ((sendingFrom ⟨toE 0 .shedNewest true, .active, [7] ++ [6]⟩).arrive 1 5 .tail).1 = .accepted ∧
    (∀ q, ∃ h, (sendingFrom q).record 5 = .held h) ∧ ∀ q, ∃ g, (sendingFrom q).record 6 = .held g :=
  ⟨by decide +kernel, by decide +kernel, by decide +kernel,
    fun q => ⟨stored 1, by simp [sendingFrom, waiting, State.record]⟩,
    fun q => ⟨stored 1, by simp [sendingFrom, State.record]⟩⟩

/-! ## Witnesses: the engine -/

/-- An order frame of the manager in cell 9, held by intake as record 5, with the payload as given. -/
def inIntake (payload : List Byte) : State :=
  { (State.reset.setRecord 5 (.held ⟨[9], 8 + payload.length, .port .E, ownOrder, 0, 1⟩)).setDeque 28
      ⟨(resetDequeConfig 28).1, .active, [5]⟩ with
    mem := writeStored [9] 0 (ownOrder.encode payload.length ++ payload) [] }

theorem inIntake_sound (payload : List Byte) (c : CellNo) : (inIntake payload).eccOf c = .sound :=
  sound_of_reset (by simp [inIntake]) c

theorem witness_EngineTakeParses :
    (∃ (s : State) (h : HeldFrame), (∀ c ∈ h.cells, s.eccOf c = .sound) ∧ s.engine = .idle ∧
      (s.deque intake).entries = [5] ∧ s.record 5 = .held h ∧ h.origin = .port .E ∧ s.claim = none ∧
      framePayload (readStored h.cells s.mem 8 (h.length - 8)) = .list [⟨0x01, []⟩]) ∧
    (∃ (s : State) (h : HeldFrame), (∀ c ∈ h.cells, s.eccOf c = .sound) ∧ s.engine = .idle ∧
      (s.deque intake).entries = [5] ∧ s.record 5 = .held h ∧ h.origin = .port .E ∧ s.claim = none ∧
      framePayload (readStored h.cells s.mem 8 (h.length - 8)) = .malformed .overrun 0 0) :=
  ⟨⟨inIntake [0x01, 0], ⟨[9], 10, .port .E, ownOrder, 0, 1⟩, fun c _ => inIntake_sound _ c, by decide +kernel⟩,
    ⟨inIntake [], ⟨[9], 8, .port .E, ownOrder, 0, 1⟩, fun c _ => inIntake_sound _ c, by decide +kernel⟩⟩

/-- One cell with the error given, no cell before it or after it. -/
theorem witness_EngineTakeParses_cell (e : Ecc) :
    ∃ (s : State) (h : HeldFrame), s.eccOf 9 = e ∧ s.engine = .idle ∧ (s.deque intake).entries = [5] ∧
      s.record 5 = .held h ∧ h.origin = .port .E ∧ s.claim = none ∧ h.cells = [] ++ 9 :: [] ∧
      h.cells.length = cellsFor h.length ∧
      framePayload (readStored h.cells s.mem 8 (h.length - 8)) = .list [⟨0x01, []⟩] :=
  ⟨(inIntake [0x01, 0]).setEcc 9 e, ⟨[9], 10, .port .E, ownOrder, 0, 1⟩, by cases e <;> decide +kernel⟩

/-- The manager's claim with the reply to sequence 5 kept in record 6. -/
def kept : Claim := { lease with lastSeq := some 5, replyMemory := some 6 }

/-- The frame of sequence 5 comes again; control deque of E and claim as given. -/
def again (entries : List RecordNo) (k : Claim) : State :=
  { ((inIntake []).setRecord 6 (.held (stored 1))).setDeque 29 ⟨(resetDequeConfig 29).1, .active, entries⟩ with
    claim := some k }

theorem witness_RetransmissionIsReplayed (entries : List RecordNo) (reply : Option RecordNo) :
    ∃ (s : State) (h g : HeldFrame) (k : Claim), s.engine = .idle ∧ (s.deque intake).entries = [5] ∧
      s.record 5 = .held h ∧ h.origin = .port .E ∧ h.header.dest ≠ 4095 ∧ s.claim = some k ∧
      k.holder = h.header.src ∧ k.lastSeq = some h.header.seq ∧ k.replyMemory = reply ∧ s.record 6 = .held g ∧
      s.deque (controlDeque .E) = ⟨(resetDequeConfig 29).1, .active, entries⟩ :=
  ⟨again entries { kept with replyMemory := reply }, ⟨[9], 8, .port .E, ownOrder, 0, 1⟩, stored 1,
    { kept with replyMemory := reply }, rfl, by simp [again, inIntake, intake, State.deque],
    by simp [again, inIntake, State.record], rfl, by decide, rfl, rfl, rfl, rfl, by simp [again, State.record],
    by simp [again, controlDeque, State.deque]⟩

/-- With no reply kept: the free queues as a build finds them, and each of them empty. -/
theorem witness_RetransmissionIsReplayed_build :
    (∃ records cells, (again [] { kept with replyMemory := none }).freeRecords = 0 :: records ∧
      (again [] { kept with replyMemory := none }).freeCells = 0 :: cells) ∧
    ({ again [] { kept with replyMemory := none } with freeRecords := [] }.freeRecords = []) ∧
    ({ again [] { kept with replyMemory := none } with freeCells := [] }.freeCells = []) :=
  ⟨⟨allRecords.tail, allCells.tail, by decide +kernel⟩, rfl, rfl⟩

/-- The engine is at a step of the reply to a malformed frame, which it holds as record 5, with intake, the control
deque of E, the role and the claim record as given; records 6 and 7 are held as well. -/
def replying (step : ReplyStep) (role : Role) (claim : Option Claim) (waits placed : List RecordNo) : State :=
  { ((((State.reset.setRecord 5 (.held (stored 1))).setRecord 6 (.held (stored 1))).setRecord 7
      (.held (stored 1))).setDeque 28 (intakeWith waits)).setDeque 29 ⟨(resetDequeConfig 29).1, .active, placed⟩ with
    engine := .replying { job [] with role := role, orderFrame := some 5 } .malformed step
    claim := claim }

theorem witness_ReplyBuild_build :
    (∃ (s : State) (j : Job) (rest : List RecordNo), s.engine = .replying j .malformed .build ∧
      s.freeRecords = 0 :: rest ∧ cellsFor (8 + (replyPayload .malformed j.results).length) ≤ s.freeCells.length) ∧
    (∃ (s : State) (j : Job), s.engine = .replying j .malformed .build ∧ s.freeRecords = []) ∧
    (∃ (s : State) (j : Job), s.engine = .replying j .malformed .build ∧
      s.freeCells.length < cellsFor (8 + (replyPayload .malformed j.results).length)) :=
  ⟨⟨replying .build .own (some lease) [] [], { job [] with orderFrame := some 5 }, allRecords.tail,
      by decide +kernel⟩,
    ⟨{ replying .build .own (some lease) [] [] with freeRecords := [] }, { job [] with orderFrame := some 5 },
      by decide +kernel⟩,
    ⟨{ replying .build .own (some lease) [] [] with freeCells := [] }, { job [] with orderFrame := some 5 },
      by decide +kernel⟩⟩

/-- The holder's own frame with an older reply kept; a broadcast frame; a frame of another source. -/
theorem witness_ReplyBuild_memory (new : Option RecordNo) :
    (∃ (s : State) (j : Job) (k : Claim), s.engine = .replying j .malformed (.memory new) ∧ j.role = .own ∧
      s.claim = some k ∧ k.holder = j.copy.src ∧ k.replyMemory = some 6) ∧
    (∃ (s : State) (j : Job), s.engine = .replying j .malformed (.memory new) ∧ j.role = .broadcast) ∧
    (∃ (s : State) (j : Job), s.engine = .replying j .malformed (.memory new) ∧ j.role = .own ∧
      s.holder? ≠ some j.copy.src) :=
  ⟨⟨replying (.memory new) .own (some kept) [] [], { job [] with orderFrame := some 5 }, kept, rfl, rfl, rfl, rfl, rfl⟩,
    ⟨replying (.memory new) .broadcast (some kept) [] [], { job [] with role := .broadcast, orderFrame := some 5 },
      rfl, rfl⟩,
    ⟨replying (.memory new) .own none [] [], { job [] with orderFrame := some 5 }, rfl, rfl,
      fun h => nomatch (show (none : Option Address) = _ from h)⟩⟩

theorem witness_ReplyBuild_placement :
    (∃ (s : State) (j : Job), s.engine = .replying j .malformed (.placement 7) ∧
      ((s.settle .replyBuild).arrive (controlDeque j.copy.port) 7 .tail).1 = .accepted) ∧
    (∃ (s : State) (j : Job), s.engine = .replying j .malformed (.placement 7) ∧
      ((s.settle .replyBuild).arrive (controlDeque j.copy.port) 7 .tail).1 = .dequeFull) :=
  ⟨⟨replying (.placement 7) .own (some lease) [] ((allRecords.drop 8).take 15), { job [] with orderFrame := some 5 },
      by decide +kernel⟩,
    ⟨replying (.placement 7) .own (some lease) [] ((allRecords.drop 8).take 16), { job [] with orderFrame := some 5 },
      by decide +kernel⟩⟩

theorem witness_ReplyBuild_release (new : Option RecordNo) (waits : List RecordNo) :
    ∃ (s : State) (j : Job), s.engine = .replying j .malformed (.release new) ∧ j.orderFrame = some 5 ∧
      (s.deque intake).entries = waits :=
  ⟨replying (.release new) .own (some lease) waits [], { job [] with orderFrame := some 5 }, rfl, rfl,
    by simp [replying, intake, intakeWith, State.deque]⟩

theorem witness_TimersExpire :
    (∃ (s : State) (k : Claim), s.claim = some k ∧ k.expiry = s.timebase) ∧
    (∃ (s : State) (k : Claim), s.claim = some k ∧ k.expiry ≠ s.timebase) ∧ (∃ s : State, s.claim = none) ∧
    (∃ s : State, s.exc.retry = some s.timebase) ∧ (∃ s : State, s.exc.retry ≠ some s.timebase) :=
  ⟨⟨{ dueState ⟨0x01, []⟩ with timebase := 30000000 }, lease, by decide +kernel⟩, ⟨dueState ⟨0x01, []⟩, lease, by decide +kernel⟩,
    ⟨State.reset, by decide +kernel⟩,
    ⟨{ State.reset with exc := { resetExc with retry := some 0 } }, by decide +kernel⟩,
    ⟨State.reset, by decide +kernel⟩⟩

theorem witness_ConcludeOrder :
    (∃ (j : Job) (o : Order), j.orders[j.position]? = some o) ∧ (∃ j : Job, j.orders[j.position]? = none) :=
  ⟨⟨job [⟨0x01, []⟩, ⟨0x60, []⟩], ⟨0x60, []⟩, by decide⟩, ⟨job [⟨0x01, []⟩], by decide⟩⟩

/-- The order due in `dueState`, with a list end and data used as given. -/
def dueWith (o : Order) (e : Option ListEnd) (used : Nat) : State :=
  { State.reset with engine := .executing { job [o] with listEnd := e, dataUsed := used } }

theorem witness_ListEndAndRoom :
    (∃ (s : State) (j : Job), s.engine = .executing j ∧ j.current? = some ⟨0x01, []⟩ ∧ j.listEnd = some .noRoom) ∧
    (∃ (s : State) (j : Job), s.engine = .executing j ∧ j.current? = some ⟨0x01, []⟩ ∧ j.listEnd = some .stop) ∧
    (∃ (s : State) (j : Job), s.engine = .executing j ∧ j.current? = some ⟨0x01, []⟩ ∧ j.listEnd = some .reset) ∧
    (∃ (s : State) (j : Job), s.engine = .executing j ∧ j.current? = some ⟨0x01, []⟩ ∧ j.listEnd = none ∧
      j.dataUsed + greatestData 0x01 + (2 + 4 * j.orders.length) = 1017) :=
  ⟨⟨dueWith ⟨0x01, []⟩ (some .noRoom) 0, _, rfl, by decide⟩, ⟨dueWith ⟨0x01, []⟩ (some .stop) 0, _, rfl, by decide⟩,
    ⟨dueWith ⟨0x01, []⟩ (some .reset) 0, _, rfl, by decide⟩, ⟨dueWith ⟨0x01, []⟩ none 999, _, rfl, by decide⟩⟩

theorem witness_OrderChecks :
    (∃ (s : State) (j : Job), OrderDue s j ⟨0x7F, []⟩ (greatestData 0x7F) ∧ orderRow 0x7F = none) ∧
    (∃ (s : State) (j : Job), OrderDue s j ⟨0x71, [0]⟩ (greatestData 0x71) ∧ orderRow 0x71 = some (.write, 0, 0)) ∧
    (∃ (s : State) (j : Job), OrderDue s j ⟨0x02, [1]⟩ (greatestData 0x02) ∧ orderRow 0x02 = some (.claim, 1, 3) ∧
      j.role = .broadcast) ∧
    (∃ (s : State) (j : Job), OrderDue s j ⟨0x03, [1]⟩ (greatestData 0x03) ∧ orderRow 0x03 = some (.claim, 1, 1) ∧
      j.role = .own ∧ s.holder? ≠ some j.copy.src) :=
  ⟨⟨_, _, dueState_due _ _ (by decide), by decide⟩, ⟨_, _, dueState_due _ _ (by decide), by decide⟩,
    ⟨{ State.reset with engine := .executing { job [⟨0x02, [1]⟩] with role := .broadcast } },
      { job [⟨0x02, [1]⟩] with role := .broadcast }, ⟨rfl, rfl, rfl, by decide⟩, by decide⟩,
    ⟨dueWith ⟨0x03, [1]⟩ none 0, job [⟨0x03, [1]⟩], ⟨rfl, rfl, rfl, by decide⟩, by decide +kernel⟩⟩

/-! ## Witnesses: orders -/

/-- Any order with its greatest result can be due, from the holder, in an own frame. -/
theorem due_own (o : Order) (n : Nat) (h : n ≤ 321) :
    OrderDue (dueState o) (job [o]) o n ∧ FromHolder (dueState o) (job [o]) ∧ (job [o]).role = .own :=
  ⟨dueState_due o n h, dueState_holder o, rfl⟩

/-- Checks 5 and 6, at the operands next to good ones: a read order, a CLAIM, and write orders of the holder. -/
theorem witness_OrderChecks_operands :
    (orderRow 0x20 = some (.read, 1, 14) ∧ ∃ s j, OrderDue s j ⟨0x20, [32]⟩ (greatestData 0x20) ∧
      NoSuchIndex ⟨0x20, [32]⟩) ∧
    (orderRow 0x33 = some (.write, 1, 0) ∧ ∃ s j, OrderDue s j ⟨0x33, [4]⟩ (greatestData 0x33) ∧ FromHolder s j ∧
      NoSuchIndex ⟨0x33, [4]⟩) ∧
    (∃ s j, OrderDue s j ⟨0x10, [2, 0]⟩ (greatestData 0x10) ∧ NoSuchIndex ⟨0x10, [2, 0]⟩) ∧
    (∃ s j, OrderDue s j ⟨0x02, [0]⟩ (greatestData 0x02) ∧ j.role = .own ∧ ¬ NoSuchIndex ⟨0x02, [0]⟩ ∧
      WrongValue ⟨0x02, [0]⟩) ∧
    (∃ s j, OrderDue s j ⟨0x05, [0x0F, 0xFF]⟩ (greatestData 0x05) ∧ FromHolder s j ∧
      ¬ NoSuchIndex ⟨0x05, [0x0F, 0xFF]⟩ ∧ WrongValue ⟨0x05, [0x0F, 0xFF]⟩) ∧
    (∃ s j, OrderDue s j ⟨0x25, [31, 2]⟩ (greatestData 0x25) ∧ FromHolder s j ∧ ¬ NoSuchIndex ⟨0x25, [31, 2]⟩ ∧
      WrongValue ⟨0x25, [31, 2]⟩) :=
  ⟨⟨by decide, _, _, dueState_due _ _ (by decide), by unfold NoSuchIndex; decide⟩,
    ⟨by decide, _, _, dueState_due _ _ (by decide), dueState_holder _, by unfold NoSuchIndex; decide⟩,
    ⟨_, _, dueState_due _ _ (by decide), by unfold NoSuchIndex; decide⟩,
    ⟨_, _, dueState_due _ _ (by decide), rfl, by unfold NoSuchIndex; decide, .inl (by decide)⟩,
    ⟨_, _, dueState_due _ _ (by decide), dueState_holder _, by unfold NoSuchIndex; decide, .inr (.inl (by decide))⟩,
    ⟨_, _, dueState_due _ _ (by decide), dueState_holder _, by unfold NoSuchIndex; decide,
      .inr (.inr (.inr (.inr (.inr (.inr (.inl (by decide)))))))⟩⟩

theorem witness_ReadOrders :
    (∃ s j, OrderDue s j ⟨0x01, []⟩ 12) ∧ (∃ s j, OrderDue s j ⟨0x14, [Port.B.code]⟩ 10) ∧
    (∃ s j, OrderDue s j ⟨0x20, [31]⟩ 14) ∧ (∃ s j, OrderDue s j ⟨0x30, [Port.E.code]⟩ 5) ∧
    (∃ s j, OrderDue s j ⟨0x40, []⟩ 321) ∧ (∃ s j, OrderDue s j ⟨0x50, []⟩ 5) ∧ (∃ s j, OrderDue s j ⟨0x60, []⟩ 6) :=
  ⟨⟨_, _, dueState_due _ _ (by decide)⟩, ⟨_, _, dueState_due _ _ (by decide)⟩, ⟨_, _, dueState_due _ _ (by decide)⟩,
    ⟨_, _, dueState_due _ _ (by decide)⟩, ⟨_, _, dueState_due _ _ (by decide)⟩, ⟨_, _, dueState_due _ _ (by decide)⟩,
    ⟨_, _, dueState_due _ _ (by decide)⟩⟩

theorem witness_ClaimOutcomes :
    (∃ s j, OrderDue s j ⟨0x02, [255]⟩ 3 ∧ j.role = .own ∧ s.claim = none) ∧
    (∃ s j k, OrderDue s j ⟨0x02, [1]⟩ 3 ∧ j.role = .own ∧ s.claim = some k ∧ k.holder = j.copy.src) ∧
    (∃ s j k, OrderDue s j ⟨0x02, [1]⟩ 3 ∧ j.role = .own ∧ s.claim = some k ∧ k.holder ≠ j.copy.src) ∧
    (∃ s j, OrderDue s j ⟨0x02, [0]⟩ 3 ∧ j.role = .own) :=
  ⟨⟨dueWith ⟨0x02, [255]⟩ none 0, _, ⟨rfl, rfl, rfl, by decide⟩, rfl, rfl⟩,
    ⟨_, _, lease, dueState_due _ _ (by decide), rfl, rfl, rfl⟩,
    ⟨{ dueState ⟨0x02, [1]⟩ with claim := some { lease with holder := 3 } }, job [⟨0x02, [1]⟩], { lease with holder := 3 },
      ⟨rfl, rfl, rfl, by decide⟩, rfl, rfl, by decide⟩,
    ⟨_, _, dueState_due _ _ (by decide), rfl⟩⟩

/-- The two answers with the seconds left, each at the expiry stamp with the expiry event still to come (entry 16). -/
theorem witness_seconds_left_at_expiry :
    (∃ s j k, OrderDue s j ⟨0x01, []⟩ 12 ∧ s.claim = some k ∧ k.expiry = s.timebase) ∧
    (∃ s j k, OrderDue s j ⟨0x02, [1]⟩ 3 ∧ j.role = .own ∧ s.claim = some k ∧ k.holder ≠ j.copy.src ∧
      k.expiry = s.timebase) :=
  ⟨⟨{ dueState ⟨0x01, []⟩ with timebase := 30000000 }, job [⟨0x01, []⟩], lease, ⟨rfl, rfl, rfl, by decide⟩, rfl, rfl⟩,
    ⟨{ dueState ⟨0x02, [1]⟩ with claim := some { lease with holder := 3, expiry := 0 } }, job [⟨0x02, [1]⟩],
      { lease with holder := 3, expiry := 0 }, ⟨rfl, rfl, rfl, by decide⟩, rfl, rfl, by decide, rfl⟩⟩

theorem witness_RenewLease :
    (∃ s j, OrderDue s j ⟨0x03, [1]⟩ 1 ∧ j.role = .own ∧ s.holder? ≠ some j.copy.src) ∧
    (∃ s j, OrderDue s j ⟨0x03, [0]⟩ 1 ∧ j.role = .own ∧ s.holder? = some j.copy.src) ∧
    (∃ s j k, OrderDue s j ⟨0x03, [255]⟩ 1 ∧ j.role = .own ∧ s.claim = some k ∧ k.holder = j.copy.src) :=
  ⟨⟨dueWith ⟨0x03, [1]⟩ none 0, job [⟨0x03, [1]⟩], ⟨rfl, rfl, rfl, by decide⟩, rfl, by decide +kernel⟩,
    ⟨_, _, dueState_due _ _ (by decide), rfl, rfl⟩, ⟨_, _, lease, dueState_due _ _ (by decide), rfl, rfl, rfl⟩⟩

theorem witness_ReleaseClaim :
    (∃ s j k, OrderDue s j ⟨0x04, []⟩ 0 ∧ j.role = .own ∧ s.claim = some k ∧ k.holder = j.copy.src) ∧
    (∃ s j k, OrderDue s j ⟨0x04, []⟩ 0 ∧ j.role = .own ∧ s.claim = some k ∧ k.holder ≠ j.copy.src) :=
  ⟨⟨_, _, lease, dueState_due _ _ (by decide), rfl, rfl, rfl⟩,
    ⟨{ dueState ⟨0x04, []⟩ with claim := some { lease with holder := 3 } }, job [⟨0x04, []⟩], { lease with holder := 3 },
      ⟨rfl, rfl, rfl, by decide⟩, rfl, rfl, by decide⟩⟩

/-- An order due, with entry 511 as given. -/
def dueEntry (o : Order) (b : EntryBody) : State := (dueState o).setEntry 511 ⟨3, b⟩

theorem dueEntry_due (o : Order) (b : EntryBody) (n : Nat) (h : n ≤ 321) : OrderDue (dueEntry o b) (job [o]) o n :=
  due_of_engine (dueState_due o n h) (by simp [dueEntry])

theorem dueEntry_holder (o : Order) (b : EntryBody) : FromHolder (dueEntry o b) (job [o]) :=
  holder_of_claim (dueState_holder o) (by simp [dueEntry])

theorem dueEntry_entry (o : Order) (b : EntryBody) : (dueEntry o b).entry 511 = ⟨3, b⟩ := by simp [dueEntry]

theorem witness_TableReads_entry (b : EntryBody) :
    ∃ s j, OrderDue s j ⟨0x10, [1, 0xFF]⟩ 16 ∧ (half 1 0xFF).toNat = (511 : EntryNo).val ∧ (s.entry 511).body = b :=
  ⟨_, _, dueEntry_due _ b _ (by decide), by decide, by rw [dueEntry_entry]⟩

theorem dueEntry_matching (o : Order) {x : Stored} {d : Address} {c : BitVec 3} {p : Port}
    (h : x.matches d c p = true) : (dueEntry o (.valid x)).matching d c p = [511] := by
  rw [← matching_withEntry h]
  exact matching_of_entries (by simp [dueEntry, withEntry, dueState, State.setEntry]) _ _ _

theorem dueState_entry (o : Order) (i : EntryNo) : (dueState o).entry i = ⟨0, .free⟩ :=
  (entry_of_entries (by simp [dueState]) i).trans (reset_entry i)

theorem dueEntry_entry_of_ne (o : Order) (b : EntryBody) {i : EntryNo} (h : i ≠ 511) :
    (dueEntry o b).entry i = ⟨0, .free⟩ :=
  (setEntry_entry_of_ne _ _ h).trans (dueState_entry o i)

theorem witness_TableReads_find :
    half 0x04 0xB0 = (0x4B0 : Address).setWidth 16 ∧ (2 : Byte) = (2 : BitVec 3).setWidth 8 ∧
    (∃ s j, OrderDue s j ⟨0x13, [0x04, 0xB0, 2, Port.E.code]⟩ 2 ∧ s.matching 0x4B0 2 .E = []) ∧
    (∃ s j i x, OrderDue s j ⟨0x13, [0x04, 0xB0, 2, Port.E.code]⟩ 2 ∧ s.matching 0x4B0 2 .E = [i] ∧
      (s.entry i).body = .valid (.sound x)) ∧
    (∃ s j i b, OrderDue s j ⟨0x13, [0x04, 0xB0, 2, Port.E.code]⟩ 2 ∧ s.matching 0x4B0 2 .E = [i] ∧
      (s.entry i).body = .valid (.damaged b)) :=
  ⟨by decide, by decide, ⟨_, _, dueState_due _ _ (by decide), matching_of_reset (by simp [dueState]) _ _ _⟩,
    ⟨_, _, 511, goodContent, dueEntry_due _ (.valid (.sound goodContent)) _ (by decide),
      dueEntry_matching _ (by decide), by rw [dueEntry_entry]⟩,
    ⟨_, _, 511, damagedBytes, dueEntry_due _ (.valid (.damaged damagedBytes)) _ (by decide),
      dueEntry_matching _ (by decide), by rw [dueEntry_entry]⟩⟩

/-- The operand bytes of a WRITE-ENTRY of `goodContent` into entry 0 or 511. -/
def writeOps (i1 i0 v1 v0 : Byte) : List Byte :=
  [i1, i0, v1, v0] ++ (goodContent.key.bytes ++ goodContent.disposition.bytes)

theorem witness_WriteEntryOutcomes :
    goodContent.legal = true ∧
    (∃ s j, OrderDue s j ⟨0x11, writeOps 1 0xFF 0 2⟩ 2 ∧ FromHolder s j ∧ (half 1 0xFF).toNat = (511 : EntryNo).val ∧
      half 0 2 ≠ (s.entry 511).version) ∧
    (∃ s j, OrderDue s j ⟨0x11, writeOps 0 0 0 0⟩ 2 ∧ FromHolder s j ∧ (half 0 0).toNat = (0 : EntryNo).val ∧
      half 0 0 = (s.entry 0).version ∧
      ((511 : EntryNo) ≠ 0 ∧ ∃ y, (s.entry 511).body = .valid y ∧ y.overlaps goodContent.key = true) ∧
      ∀ m : EntryNo, m < 511 → ¬ (m ≠ 0 ∧ ∃ y, (s.entry m).body = .valid y ∧ y.overlaps goodContent.key = true)) ∧
    (∃ s j, OrderDue s j ⟨0x11, writeOps 1 0xFF 0 0⟩ 2 ∧ FromHolder s j ∧ half 0 0 = (s.entry 511).version ∧
      ∀ m : EntryNo, ¬ (m ≠ 511 ∧ ∃ y, (s.entry m).body = .valid y ∧ y.overlaps goodContent.key = true)) := by
  refine ⟨by decide, ⟨_, _, dueEntry_due _ .free _ (by decide), dueEntry_holder _ _, by decide, ?_⟩,
    ⟨_, _, dueEntry_due _ (.valid (.sound goodContent)) _ (by decide), dueEntry_holder _ _, by decide, ?_, ?_, ?_⟩,
    ⟨_, _, dueState_due _ _ (by decide), dueState_holder _, ?_, ?_⟩⟩
  · rw [dueEntry_entry]; decide
  · rw [dueEntry_entry_of_ne _ _ (by decide)]; decide
  · exact ⟨by decide, .sound goodContent, by rw [dueEntry_entry], by decide⟩
  · rintro m hm ⟨-, y, hy, -⟩
    rw [dueEntry_entry_of_ne _ _ (ne_of_lt hm)] at hy
    cases hy
  · rw [dueState_entry]; decide
  · rintro m ⟨-, y, hy, -⟩
    rw [dueState_entry] at hy
    cases hy

/-- A disposition of a default entry. -/
def noRoute : Disposition := ⟨.discardReport, .head, .preserve⟩

theorem witness_FreeEntryAndWriteDefault :
    (∃ s j, OrderDue s j ⟨0x12, [1, 0xFF, 0, 2]⟩ 2 ∧ FromHolder s j ∧ (half 1 0xFF).toNat = (511 : EntryNo).val ∧
      half 0 2 ≠ (s.entry 511).version) ∧
    (∃ s j, OrderDue s j ⟨0x12, [1, 0xFF, 0, 3]⟩ 2 ∧ FromHolder s j ∧ half 0 3 = (s.entry 511).version) ∧
    noRoute.action.legal = true ∧
    (∃ s j, OrderDue s j ⟨0x15, [Port.B.code, 0, 1] ++ noRoute.bytes⟩ 2 ∧ FromHolder s j ∧
      half 0 1 ≠ (s.defaults.get .B).version) ∧
    (∃ s j, OrderDue s j ⟨0x15, [Port.B.code, 0, 0] ++ noRoute.bytes⟩ 2 ∧ FromHolder s j ∧
      half 0 0 = (s.defaults.get .B).version) :=
  ⟨⟨_, _, dueEntry_due _ .free _ (by decide), dueEntry_holder _ _, by decide, by rw [dueEntry_entry]; decide⟩,
    ⟨_, _, dueEntry_due _ .free _ (by decide), dueEntry_holder _ _, by rw [dueEntry_entry]; decide⟩, by decide,
    ⟨_, _, dueState_due _ _ (by decide), dueState_holder _, by decide +kernel⟩,
    ⟨_, _, dueState_due _ _ (by decide), dueState_holder _, by decide +kernel⟩⟩

/-- An order due, with deque `d` as given. -/
def dueDeque (o : Order) (d : DequeNo) (q : Deque) : State := (dueState o).setDeque d q

theorem dueDeque_due (o : Order) (d : DequeNo) (q : Deque) (n : Nat) (h : n ≤ 321) :
    OrderDue (dueDeque o d q) (job [o]) o n ∧ FromHolder (dueDeque o d q) (job [o]) ∧ (dueDeque o d q).deque d = q :=
  ⟨due_of_engine (dueState_due o n h) (by simp [dueDeque]), holder_of_claim (dueState_holder o) (by simp [dueDeque]),
    setDeque_deque_same _ _ _⟩

/-- SET-DEQUE operands: deque, W, priority 7, limit 255, SHED_NEWEST, dwell 65535, retain on. -/
def setOps (d : DequeNo) : List Byte :=
  [BitVec.ofNat 8 d.val, (Binding.port .W).code, BitVec.ofNat 8 (7 : Fin 8).val, 255, Policy.shedNewest.code, 255, 255,
    boolByte true]

/-- READ-DEQUE can be due for any deque, empty or headed by a HELD record. -/
theorem witness_ReadOrders_deque (d : DequeNo) (q : Deque) :
    ∃ s j h, OrderDue s j ⟨0x20, [BitVec.ofNat 8 d.val]⟩ 14 ∧ s.deque d = q ∧ s.record 5 = .held h :=
  ⟨(dueDeque ⟨0x20, [BitVec.ofNat 8 d.val]⟩ d q).setRecord 5 (.held (stored 1)), _, stored 1,
    due_of_engine (dueDeque_due _ d q 14 (by decide)).1 (by simp), by simp [dueDeque, State.deque], by simp⟩

/-- Every deque order can be due for a fixed deque and, in each state, for a general one. -/
theorem witness_DequeOrders (d : DequeNo) (q : Deque) :
    (∃ s j, OrderDue s j ⟨0x21, setOps d⟩ 0 ∧ FromHolder s j ∧ s.deque d = q) ∧
    (∃ s j, OrderDue s j ⟨0x22, [BitVec.ofNat 8 d.val]⟩ 0 ∧ FromHolder s j ∧ s.deque d = q) ∧
    (∃ s j, OrderDue s j ⟨0x23, [BitVec.ofNat 8 d.val]⟩ 0 ∧ FromHolder s j ∧ s.deque d = q) ∧
    (∃ s j, OrderDue s j ⟨0x24, [BitVec.ofNat 8 d.val]⟩ 0 ∧ FromHolder s j ∧ s.deque d = q) :=
  ⟨⟨_, _, dueDeque_due _ d q _ (by decide)⟩, ⟨_, _, dueDeque_due _ d q _ (by decide)⟩,
    ⟨_, _, dueDeque_due _ d q _ (by decide)⟩, ⟨_, _, dueDeque_due _ d q _ (by decide)⟩⟩

/-- DRAIN-DEQUE can be due for any deque that is not DRAINING, with either target. -/
theorem witness_DrainOrder (d : DequeNo) (q : Deque) (b : Byte) (h : ∀ t n, q.state ≠ .draining t n) :
    ∃ s j, OrderDue s j ⟨0x25, [BitVec.ofNat 8 d.val, b]⟩ 1 ∧ FromHolder s j ∧ s.deque d = q ∧
      ∀ t n, (s.deque d).state ≠ .draining t n := by
  obtain ⟨h1, h2, h3⟩ := dueDeque_due ⟨0x25, [BitVec.ofNat 8 d.val, b]⟩ d q 1 (by decide)
  exact ⟨_, _, h1, h2, h3, by rw [h3]; exact h⟩

theorem witness_PortOrders :
    (∃ s j, OrderDue s j ⟨0x31, [Port.E.code]⟩ 0 ∧ FromHolder s j) ∧
    (∃ s j, OrderDue s j ⟨0x32, [Port.W.code]⟩ 0 ∧ FromHolder s j) ∧
    (∃ s j, OrderDue s j ⟨0x33, [Port.B.code]⟩ 0 ∧ FromHolder s j ∧ (s.port .B).link.isUp = false) ∧
    (∃ s j, OrderDue s j ⟨0x33, [Port.B.code]⟩ 0 ∧ FromHolder s j ∧ (s.port .B).link.isUp = true) :=
  ⟨⟨_, _, dueState_due _ _ (by decide), dueState_holder _⟩, ⟨_, _, dueState_due _ _ (by decide), dueState_holder _⟩,
    ⟨_, _, dueState_due _ _ (by decide), dueState_holder _, rfl⟩,
    ⟨(dueState ⟨0x33, [Port.B.code]⟩).setLink .B (.up 0), _, due_of_engine (dueState_due _ _ (by decide)) (by simp),
      holder_of_claim (dueState_holder _) (by simp), rfl⟩⟩

/-- An UP link with an IDLE transmitter, without and with a frame being received. -/
theorem witness_PortOrders_receiving :
    (∃ s j, OrderDue s j ⟨0x33, [Port.E.code]⟩ 0 ∧ FromHolder s j ∧ (s.port .E).link.isUp = true ∧
      (s.port .E).transmitter = .idle ∧ ∀ x, (s.port .E).receiver ≠ .receiving x) ∧
    (∃ s j x f, OrderDue s j ⟨0x33, [Port.E.code]⟩ 0 ∧ FromHolder s j ∧ (s.port .E).link.isUp = true ∧
      (s.port .E).transmitter = .idle ∧ (s.port .E).receiver = .receiving x ∧ s.record x.record = .receiving f) :=
  ⟨⟨(dueState ⟨0x33, [Port.E.code]⟩).setLink .E (.up 0), _, due_of_engine (dueState_due _ _ (by decide)) (by simp),
      holder_of_claim (dueState_holder _) (by simp), rfl, rfl,
      fun x h => nomatch (show Receiver.idle = .receiving x from h)⟩,
    ⟨{ receiving 0 0 [] [5] with engine := (dueState ⟨0x33, [Port.E.code]⟩).engine, claim := some lease }, _,
      reception 0 [], ⟨[5], .E, 0⟩, due_of_engine (dueState_due _ _ (by decide)) rfl,
      holder_of_claim (dueState_holder _) rfl, rfl, rfl, by decide +kernel⟩⟩

theorem witness_ReportingOrders :
    (∃ s j, OrderDue s j ⟨0x41, [255]⟩ 1 ∧ FromHolder s j) ∧
    (∃ s j, OrderDue s j ⟨0x42, [0x3E, 3, boolByte true]⟩ 0 ∧ FromHolder s j ∧ (3 : Byte).toNat = (3 : Fin 4).val ∧
      (0x3E : Byte).getLsbD 0 = false ∧ (0x3E : Byte).getLsbD 6 = false ∧ (0x3E : Byte).getLsbD 7 = false) ∧
    (∃ s j, OrderDue s j ⟨0x51, []⟩ 0 ∧ FromHolder s j) :=
  ⟨⟨_, _, dueState_due _ _ (by decide), dueState_holder _⟩,
    ⟨_, _, dueState_due _ _ (by decide), dueState_holder _, by decide⟩,
    ⟨_, _, dueState_due _ _ (by decide), dueState_holder _⟩⟩

/-- A reset order can be due, and while a frame is being sent. -/
theorem reset_due (o : Order) :
    ∃ s j h, OrderDue s j o 0 ∧ FromHolder s j ∧ (s.port .E).transmitter = .sending 5 1 [9] ∧ s.record 5 = .held h :=
  ⟨((dueState o).setRecord 5 (.held (stored 1))).setTransmitter .E (.sending 5 1 [9]), _, stored 1,
    due_of_engine (dueState_due o 0 (by decide)) (by simp), holder_of_claim (dueState_holder o) (by simp), rfl,
    by simp [State.record]⟩

theorem witness_ResetTraffic :
    ∃ s j h, OrderDue s j ⟨0x70, []⟩ 0 ∧ FromHolder s j ∧ (s.port .E).transmitter = .sending 5 1 [9] ∧
      s.record 5 = .held h := reset_due _

theorem witness_ResetFull :
    ∃ s j h, OrderDue s j ⟨0x71, []⟩ 0 ∧ FromHolder s j ∧ (s.port .E).transmitter = .sending 5 1 [9] ∧
      s.record 5 = .held h := reset_due _

/-! ## Witnesses: exceptions and encodings -/

theorem witness_RecordSequence :
    (∃ (s : State) (q : Request), s.exc.mask.allows q.code.cls = true) ∧
    (∃ (s : State) (q : Request), s.exc.mask.allows q.code.cls = false) ∧
    (∃ t, exec (.ackExceptions []) State.reset = .next t) ∧ (∃ t, exec (.readExceptions []) State.reset = .next t) :=
  ⟨⟨State.reset, { code := .linkUp }, by decide +kernel⟩, ⟨State.reset, { code := .runt }, by decide +kernel⟩,
    ⟨_, rfl⟩, ⟨_, rfl⟩⟩

/-- A record with the sequence and the state as given. -/
def record (seq : Byte) (mark : RecordMark) : ExceptionRecord :=
  { Request.toRecord { code := .linkUp } seq 0 with mark := mark }

/-- A full table: slot i holds sequence i, and the records from `pending` on are PENDING. -/
def fullTable (pending : Nat) : ExcUnit :=
  { resetExc with
    slots := Vector.ofFn (fun i => some (record (BitVec.ofNat 8 i.val) (if pending ≤ i.val then .pending else .notified)))
    creation := List.finRange 16
    counter := 16 }

theorem witness_SlotChoice :
    (∃ u : ExcUnit, (∀ i, ∀ r ∈ u.slot i, r.seq ≠ u.counter) ∧ (∀ i ∈ u.creation, (u.slot i).isSome = true) ∧
      u.slot 0 = none) ∧
    (∃ (u : ExcUnit) (newer : List SlotNo) (r : ExceptionRecord), (∀ i, ∀ r ∈ u.slot i, r.seq ≠ u.counter) ∧
      (∀ i ∈ u.creation, (u.slot i).isSome = true) ∧ (∀ i, u.slot i ≠ none) ∧ u.creation = [] ++ 0 :: newer ∧
      u.slot 0 = some r ∧ r.mark = .notified) ∧
    (∃ (u : ExcUnit) (newer : List SlotNo), (∀ i, ∀ r ∈ u.slot i, r.seq ≠ u.counter) ∧
      (∀ i ∈ u.creation, (u.slot i).isSome = true) ∧ (∀ i, u.slot i ≠ none) ∧
      (∀ i, ∀ r ∈ u.slot i, r.mark = .pending) ∧ u.creation = 0 :: newer) :=
  ⟨⟨resetExc, by decide +kernel⟩, ⟨fullTable 1, (List.finRange 16).tail, record 0 .notified, by decide +kernel⟩,
    ⟨fullTable 0, (List.finRange 16).tail, by decide +kernel⟩⟩

/-- A record that holds the counter's sequence, with every slot occupied or, when `freed`, with slot 0 FREE. -/
theorem witness_SlotChoice_sequence (freed : Bool) :
    ∃ (u : ExcUnit) (old : ExceptionRecord), (∀ i ∈ u.creation, (u.slot i).isSome = true) ∧ u.slot 3 = some old ∧
      old.seq = u.counter ∧ (∀ i, i ≠ 3 → ∀ r ∈ u.slot i, r.seq ≠ u.counter) ∧
      (if freed then u.slot 0 = none else ∀ i, u.slot i ≠ none) :=
  ⟨if freed then (resetExc.setSlot 3 (some (record 0 .pending))) |> fun u => { u with creation := [3] }
      else { fullTable 0 with counter := 3 },
    if freed then record 0 .pending else record 3 .pending, by cases freed <;> decide +kernel⟩

/-- The holder resets traffic with a NOTIFIED record in the table and the retry timer as given. -/
def notifiedReset (e : Option Stamp) : State :=
  { dueState ⟨0x70, []⟩ with exc := { resetExc.setSlot 0 (some (record 0 .notified)) with creation := [0], retry := e } }

theorem witness_ResetTraffic_timer (e : Option Stamp) :
    OrderDue (notifiedReset e) (job [⟨0x70, []⟩]) ⟨0x70, []⟩ 0 ∧ FromHolder (notifiedReset e) (job [⟨0x70, []⟩]) ∧
      (notifiedReset e).claim.isSome = true ∧ (notifiedReset e).exc.retry = e :=
  ⟨⟨rfl, rfl, rfl, by decide⟩, ⟨rfl, rfl⟩, rfl, rfl⟩

/-- A timer that runs keeps its stamp, and a stopped one starts. -/
theorem test_reset_traffic_timer :
    leads (run (.resetTraffic []) (notifiedReset (some 7))) (fun t =>
      t.exc.pendingRecords ≠ [] ∧ t.exc.retry = some 7) = true ∧
    leads (run (.resetTraffic []) (notifiedReset none)) (fun t =>
      t.exc.pendingRecords ≠ [] ∧ t.exc.retry = some 100000) = true := by decide +kernel

/-- A holder, a PENDING record in slot 0, and an attempt due. -/
def toNotify : State :=
  { State.reset with
    claim := some lease
    follow := [.noticeDeliveryAttempt]
    exc := (resetExc.setSlot 0 (some (record 0 .pending))) |> fun u => { u with creation := [0], counter := 1 } }

theorem witness_NoticeDelivery :
    (∃ (s : State) (k : Claim) (records : List RecordNo) (cells : List CellNo),
      .noticeDeliveryAttempt ∈ s.follow ∧ s.exc.notices = true ∧ s.claim = some k ∧
      s.exc.pendingRecords ≠ [] ∧ s.exc.building = none ∧ s.freeRecords = 0 :: records ∧
      s.freeCells = 0 :: cells) ∧
    (∃ s : State, s.exc.notices = false) ∧ (∃ s : State, .noticeDeliveryAttempt ∉ s.follow) ∧
    (∃ s : State, s.claim = none ∧ s.exc.pendingRecords = []) ∧
    (∃ (s : State) (k : Claim), .noticeDeliveryAttempt ∈ s.follow ∧ s.exc.notices = true ∧ s.claim = some k ∧
      s.exc.pendingRecords ≠ [] ∧ s.exc.building = none ∧ s.freeRecords = []) ∧
    (∃ (s : State) (k : Claim), .noticeDeliveryAttempt ∈ s.follow ∧ s.exc.notices = true ∧ s.claim = some k ∧
      s.exc.pendingRecords ≠ [] ∧ s.exc.building = none ∧ s.freeCells = []) :=
  ⟨⟨toNotify, lease, allRecords.tail, allCells.tail, by decide +kernel⟩,
    ⟨{ State.reset with exc := { resetExc with notices := false } }, by decide +kernel⟩, ⟨State.reset, by decide +kernel⟩,
    ⟨State.reset, by decide +kernel⟩, ⟨{ toNotify with freeRecords := [] }, lease, by decide +kernel⟩,
    ⟨{ toNotify with freeCells := [] }, lease, by decide +kernel⟩⟩

/-- A notice for the manager in record 5, carrying the record of `toNotify`; the control deque of E as given. -/
def built (entries : List RecordNo) : State :=
  { (toNotify.setRecord 5 (.held ⟨[9], 29, .internal, toOther, 0, 1⟩)).setDeque 29
      ⟨(resetDequeConfig 29).1, .active, entries⟩ with
    exc := { toNotify.exc with building := some ⟨5, manager, [0]⟩ }
    follow := [.noticePlacement] }

theorem witness_NoticePlacement :
    (∃ (s : State) (n : Building) (k : Claim) (h : HeldFrame), s.exc.building = some n ∧ s.claim = some k ∧
      k.holder = n.dest ∧ s.record n.record = .held h ∧ h.count = 1 ∧ (s.deque (controlDeque k.port)).state = .active ∧
      (s.deque (controlDeque k.port)).config.binding = .port k.port ∧
      n.record ∉ (s.deque (controlDeque k.port)).entries ∧ (s.deque (controlDeque k.port)).entries.length = 15 ∧
      (s.deque (controlDeque k.port)).config.limit.toNat = 16) ∧
    (∃ (s : State) (n : Building) (k : Claim) (h : HeldFrame), s.exc.building = some n ∧ s.claim = some k ∧
      k.holder = n.dest ∧ s.record n.record = .held h ∧ h.count = 1 ∧ (s.deque (controlDeque k.port)).state = .active ∧
      n.record ∉ (s.deque (controlDeque k.port)).entries ∧
      (s.deque (controlDeque k.port)).config.policy = .refuse ∧
      (s.deque (controlDeque k.port)).entries.length = 16 ∧
      (s.deque (controlDeque k.port)).config.limit.toNat = 16) ∧
    (∃ (s : State) (n : Building) (h : HeldFrame), s.exc.building = some n ∧ s.claim = none ∧
      s.record n.record = .held h ∧ h.count = 1) :=
  ⟨⟨built ((allRecords.drop 6).take 15), ⟨5, manager, [0]⟩, lease, ⟨[9], 29, .internal, toOther, 0, 1⟩,
      by decide +kernel⟩,
    ⟨built ((allRecords.drop 6).take 16), ⟨5, manager, [0]⟩, lease, ⟨[9], 29, .internal, toOther, 0, 1⟩,
      by decide +kernel⟩,
    ⟨{ built [] with claim := none }, ⟨5, manager, [0]⟩, ⟨[9], 29, .internal, toOther, 0, 1⟩, by decide +kernel⟩⟩

theorem witness_DetectionTaken :
    (∃ s : State, CheckLaw s) ∧ (∃ s j, OrderDue s j ⟨0x50, []⟩ 5) ∧ (∃ s : State, s.check.level.val = 1) ∧
    (∃ s : State, s.check.level.val = 2) ∧ (∃ s : State, s.check.level.val = 3) :=
  ⟨⟨State.reset, rfl⟩, ⟨_, _, dueState_due _ _ (by decide)⟩, ⟨State.reset, rfl⟩,
    ⟨{ State.reset with check := { resetCheck with level := 2 } }, rfl⟩,
    ⟨{ State.reset with check := { resetCheck with level := 3 } }, rfl⟩⟩

/-- At level 2 a TP detection is recorded and a CE is not; the answer is the sequence of the record. -/
theorem test_detection_levels :
    (let s := { State.reset with check := { resetCheck with level := 2 } }
     (s.detect (.tp 3) .E none none).1 = some 0 ∧ (s.detect (.ce 3) .E (some 1) none).1 = none ∧
       (s.detect (.tp 3) .E none none).2.exc.records.map (fun x => (x.code, x.entry)) = [(.tableParity, some 3)]) := by
  decide +kernel

/-- A record of another block owes a delivery attempt and starts the retry timer of a holder; a running one keeps its
stamp, and NOTICE_UNDELIVERED owes none. -/
theorem test_record_owes_an_attempt :
    (let s := { State.reset with claim := some lease, timebase := 7 }
     let t := s.report { code := .linkUp }
     let u := { t with timebase := 9 }.report { code := .noticeUndelivered }
     t.exc.retry = some 100007 ∧ t.follow = [.noticeDeliveryAttempt] ∧ u.exc.retry = some 100007 ∧
       u.follow = [.noticeDeliveryAttempt]) := by decide +kernel

theorem witness_OrderListRoundTrip :
    ∃ os : List Order, os ≠ [] ∧ os.length = 16 ∧ ∀ o ∈ os, o.operands.length = 255 :=
  ⟨List.replicate 16 ⟨1, List.replicate 255 0⟩, by decide +kernel⟩

theorem witness_FormatsRoundTrip : (1016 ≤ 1016) ∧ ∃ x : Content, x.legal = true := ⟨by decide, goodContent, by decide⟩

/-! ## Single steps on the states above -/

theorem test_own_order_is_handed_over :
    leads (run (.endOfFrame .E []) (goodState ownOrder)) (fun t =>
      (t.port .E).admission = .admitting ⟨0, 0, .own, none, none, .append⟩ ∧ (t.port .E).receiver = .idle ∧
        (t.deque 28).entries = []) = true := by decide +kernel

theorem test_own_order_enters_intake :
    leads (run (.endOfFrame .E []) (goodState ownOrder)) (fun t =>
      let u := (t.admitStep .E).admitStep .E
      (u.deque 28).entries = [0] ∧ u.follow = [.engineTake []] ∧ (u.port .E).admission = .idle) = true := by
  decide +kernel

/-- The keyed index goes into the record of each refused target, and the last reference frees the frame. -/
theorem test_three_targets :
    (let s := admitting toOther (placing 1) 3 ⟨⟨.port .E, some 0, 1, .refuse, 0, some false⟩, .active, []⟩
     let t := { s with exc := { resetExc with mask := ⟨true, true, true, true, true⟩ } }.finishAdmission .E 4
     t.exc.records.map (fun x => (x.code, x.deque, x.entry)) =
        [(.dequeClosed, some 2, some 511), (.reflected, some 3, some 511), (.dequeClosed, some 4, some 511)] ∧
      t.record 0 = .free ∧ (t.port .E).admission = .idle) := by decide +kernel

/-- A step of an admission is one of the things an empty queue leaves open. -/
theorem test_open_work :
    (admitting toOther (placing 1) 3 (intakeWith [])).openWork = [.admission .E] ∧ State.reset.openWork = [] := by
  decide +kernel

/-- An end of frame that waits is no open event while the unit is ADMITTING, and the only one after the release. -/
theorem test_waiting_end :
    (let s := { waitingE .discarding releasing [.finish, .start] with follow := [.replyBuild] }
     s.endsDue = [] ∧ s.openWork = [.owed .replyBuild, .admission .E] ∧ (s.admitStep .E).endsDue = [.line .E]) := by
  decide +kernel

/-- Two good frames back to back: the second waits at the receiver until the first has been released. -/
theorem test_second_end_waits :
    (let s := (goodState ownOrder).setAdmission .E releasing
     leads (run (.endOfFrame .E []) s) (fun t =>
       (t.port .E).lineWaits = [.finish] ∧ (t.port .E).receiver = (s.port .E).receiver ∧
         leads (step (t.admitStep .E)) (fun u =>
           (u.port .E).admission = .admitting ⟨0, 0, .own, none, none, .append⟩ ∧ (u.port .E).receiver = .idle ∧
             (u.port .E).lineWaits = []))) = true := by decide +kernel

theorem test_take_sends :
    leads (run (.takeAttempt .E) (oneWaits 0 0)) (fun t =>
      (t.port .E).transmitter = .sending 5 1 [9] ∧ t.marker .E 0 = 1 ∧ (t.deque 1).entries = []) = true := by decide +kernel

theorem test_transmit_side :
    State.reset.lineSends .E = .idleGroups ∧ (sending true).lineSends .E = .frame ∧
      (onE (fun y => { y with quietUntil := some 2000 })).lineSends .E = .nothing := by decide +kernel

theorem test_completion_frees :
    leads (run (.transmissionComplete .E) (sending true)) (fun t =>
      t.record 5 = .free ∧ (t.port .E).transmitter = .idle ∧ t.follow = []) = true := by decide +kernel

/-- R99, first row: the completion starts the next frame, and the loss of signal aborts and requeues that one. -/
theorem test_completion_takes_the_next :
    leads (run (.transmissionComplete .E) (sendingFrom ⟨toE 0 .refuse true, .active, [6]⟩)) (fun t =>
      t.record 5 = .free ∧ (t.port .E).transmitter = .sending 6 1 [9] ∧ (t.deque 1).entries = [] ∧
      leads (run (.lossOfSignal .E) t) (fun u =>
        (u.port .E).transmitter = .idle ∧ (u.deque 1).entries = [6])) = true := by decide +kernel

theorem test_engine_starts_the_first_order :
    leads (run (.engineTake []) (inIntake [0x01, 0])) (fun t =>
      t.engine = .executing { job [⟨0x01, []⟩] with
        orderFrame := some 5, copy := ⟨manager, 0, 7, .order, 5, true, .E⟩ } ∧ t.follow = [.identify []]) = true := by
  decide +kernel

theorem test_notice_is_built :
    leads (run .noticeDeliveryAttempt toNotify) (fun t =>
      t.exc.building = some ⟨0, manager, [0]⟩ ∧ t.follow = [.noticePlacement]) = true := by decide +kernel

/-! ## Witnesses: the laws, at a state 7 microseconds after hard reset -/

def aged : State := { State.reset with timebase := 7 }

theorem aged_steps : ∃ t, step aged = .next t := ⟨_, rfl⟩

theorem aged_record (r : RecordNo) : aged.record r = .free := by simp [State.record, aged, State.reset]

theorem aged_port (p : Port) : aged.port p = resetPort := by cases p <;> rfl

theorem aged_deque (d : DequeNo) : aged.deque d = resetDeque d := by
  simp [State.deque, aged, State.reset, resetDeques]

theorem aged_entry (i : EntryNo) : aged.entry i = ⟨0, .free⟩ := by
  simp [State.entry, aged, State.reset, resetEntries]

theorem witness_MemoryAndStationKept : ∃ s t, MemoryLaw s ∧ StationLaw s ∧ step s = .next t :=
  ⟨aged, _, ⟨List.Pairwise.nil, fun _ h => nomatch h⟩, by show (0 : Address) ≠ 4095; decide, rfl⟩

theorem witness_TableLawKept : ∃ s t, TableLaw s ∧ step s = .next t :=
  ⟨aged, _, fun i j _ k l h => by simp [aged_entry, EntryBody.soundKey?] at h, rfl⟩

theorem witness_DequeLawsKept_lawful : ∃ s t, DequeLaw s ∧ step s = .next t :=
  ⟨aged, _, fun d => by simp [aged_deque, resetDeque, Deque.lawful], rfl⟩

theorem witness_DequeLawsKept_fixed : ∃ s t, FixedLaw s ∧ step s = .next t := by
  refine ⟨aged, _, fun d h => ?_, rfl⟩
  rw [aged_deque]
  exact ⟨rfl, by revert d; decide⟩

theorem witness_PortLawsKept_transmitter : ∃ s t, TransmitterLaw s ∧ step s = .next t :=
  ⟨aged, _, fun p _ => by rw [aged_port]; rfl, rfl⟩

theorem witness_PortLawsKept_run : ∃ s t, RunLaw s ∧ step s = .next t :=
  ⟨aged, _, fun p => by rw [aged_port]; trivial, rfl⟩

theorem aged_waiting : WaitingLaw aged := fun p h => by rw [aged_port] at h; exact absurd rfl h

theorem witness_PortLawsKept_waiting : ∃ s t, WaitingLaw s ∧ step s = .next t := ⟨aged, _, aged_waiting, rfl⟩

theorem witness_PortLawsKept_admission : ∃ s t, AdmissionLaw s ∧ step s = .next t :=
  ⟨aged, _, fun p => by rw [aged_port]; trivial, rfl⟩

theorem aged_receiver : ReceiverLaw aged := fun p => by rw [aged_port]; trivial

theorem aged_owner : OwnerLaw aged := fun r => by rw [aged_record]; trivial

theorem aged_pool : PoolLaw aged := by
  have q : aged.freeRecords = allRecords := by simp [aged, State.reset]
  refine ⟨?_, by rw [q]; exact List.nodup_finRange _, fun r => ?_⟩
  · have : aged.listedCells = [] := by
      rw [State.listedCells, List.flatMap_eq_nil_iff]
      intro x hx
      obtain ⟨i, hi, rfl⟩ := List.mem_iff_getElem.mp hx
      have hr : aged.records.toList[i] = .free := aged_record ⟨i, by simpa using hi⟩
      rw [hr]; rfl
    have e : aged.freeCells = allCells := by simp [aged, State.reset]
    rw [this, List.append_nil, e]
  · rw [q]
    exact ⟨fun _ => aged_record r, fun _ => List.mem_finRange r⟩

theorem witness_PoolLawKept :
    ∃ s t, PoolLaw s ∧ ReceiverLaw s ∧ OwnerLaw s ∧ WaitingLaw s ∧ step s = .next t :=
  ⟨aged, _, aged_pool, aged_receiver, aged_owner, aged_waiting, rfl⟩

theorem aged_count : CountLaw aged := fun r => by
  have h : aged.dequeRefs r = 0 := by
    simp [State.dequeRefs, aged, State.reset, resetDeques, resetDeque]
  rw [aged_record]
  simp [State.refs, h, State.portRefs, aged_port, resetPort, Transmitter.holds, AdmissionUnit.holds, one]
  simp [aged, State.reset, Engine.job?, Engine.reply?, resetExc]

theorem witness_CountLawKept :
    ∃ s t, CountLaw s ∧ PoolLaw s ∧ ReceiverLaw s ∧ OwnerLaw s ∧ DequeLaw s ∧ UnreadLaw s ∧ step s = .next t :=
  ⟨aged, _, aged_count, aged_pool, aged_receiver, aged_owner,
    fun d => by simp [aged_deque, resetDeque, Deque.lawful], fun p => by rw [aged_port]; trivial, rfl⟩

theorem aged_exceptions : ExceptionLaw aged := by
  refine ⟨List.nodup_nil, fun i => ?_, List.nodup_nil⟩
  simp [aged, State.reset, resetExc, ExcUnit.slot]

theorem witness_EngineAndFrameLawsKept :
    ∃ s t, EngineLaw s ∧ ExceptionLaw s ∧ ReceiverLaw s ∧ HeldLaw s ∧ step s = .next t :=
  ⟨aged, _, trivial, aged_exceptions, aged_receiver, fun r => by rw [aged_record]; trivial, rfl⟩

theorem witness_ReportingLawsKept :
    (∃ s t, ExceptionLaw s ∧ TimerLaw s ∧ step s = .next t) ∧ (∃ s t, CheckLaw s ∧ step s = .next t) :=
  ⟨⟨aged, _, aged_exceptions, by simp [TimerLaw, aged, State.reset, resetExc], rfl⟩, ⟨aged, _, rfl, rfl⟩⟩

end Sys2Proof.Tests
end

section
/-! SUPPORT. The family 00_scope.md: the station address, set by HARD_RESET and SET-STATION and kept by the two order
resets (R1). -/

namespace Sys2Proof.Machine

open Sys2Proof

/-! ## The operand of SET-STATION (R151) -/

/-- A 2-byte field that holds a 12-bit address is read as that address. -/
theorem addressField_of_half {hi lo : Byte} {a : Address} (h : half hi lo = a.setWidth 16) :
    addressField hi lo = some a := by
  have hlt : (half hi lo).toNat < 4096 := by
    rw [h, BitVec.toNat_setWidth_of_le (by decide)]
    exact a.isLt
  rw [addressField, if_pos hlt, h, BitVec.setWidth_setWidth_of_le _ (by decide), BitVec.setWidth_eq]

/-- Every address but 4095 is one that a station may have. -/
theorem stationOperand_of_half {hi lo : Byte} {a : Address} (h : half hi lo = a.setWidth 16) (ha : a ≠ 4095) :
    stationOperand hi lo = some a := by
  rw [stationOperand, addressField_of_half h]
  exact if_neg ha

/-- SET-STATION with an address that a station may have: accepted, the old address in its result. -/
theorem setStationBody_of_operand {hi lo : Byte} {a : Address} {s : State} {j : Job} (hj : FromHolder s j)
    (ha : stationOperand hi lo = some a) (c : Instr) :
    setStationBody [hi, lo] j (s.settle c) =
      (.result .ok (addressBytes s.station), ({ s with station := a }).settle c) := by
  simp only [setStationBody]
  rw [holderOnly_of_fromHolder hj]
  simp only [ha]
  rfl

/-! ## What the order resets keep (R1) -/

@[simp] theorem resetTransmitter_station (p : Port) (s : State) : (s.resetTransmitter p).station = s.station := by
  unfold State.resetTransmitter
  split
  · rfl
  · simp

@[simp] theorem resetReceiver_station (p : Port) (s : State) : (s.resetReceiver p).station = s.station := by
  unfold State.resetReceiver
  split
  · simp
  · rfl

@[simp] theorem resetPortTraffic_station (p : Port) (s : State) : (s.resetPortTraffic p).station = s.station := by
  simp [State.resetPortTraffic]

@[simp] theorem resetPortFull_station (p : Port) (s : State) : (s.resetPortFull p).station = s.station := by
  simp [State.resetPortFull]

@[simp] theorem resetFrames_station (s : State) : s.resetFrames.station = s.station := by
  simp [State.resetFrames, State.dropEnded, State.emptyDeques, State.resetPool]

@[simp] theorem resetTraffic_station (s : State) : s.resetTraffic.station = s.station := by
  simp [State.resetTraffic]

@[simp] theorem resetFull_station (s : State) : s.resetFull.station = s.station := by
  simp [State.resetFull]

/-! ## The orders at the engine's position -/

/-- SET-STATION from the holder, when it is due. -/
theorem exec_setStation_of_due {s : State} {j : Job} {hi lo : Byte} {a : Address}
    (hd : OrderDue s j ⟨0x05, [hi, lo]⟩ 2) (hj : FromHolder s j) (ha : stationOperand hi lo = some a) :
    exec (.setStation [hi, lo]) s = .next
      ((({ s with station := a }).settle (.setStation [hi, lo])).conclude j 0x05 .ok (addressBytes s.station)) :=
  congrArg Host.Outcome.next (dealOrder_of_ok hd (setStationBody_of_operand hj ha _))

/-- RESET-TRAFFIC from the holder, when it is due (R127, R166). -/
theorem exec_resetTraffic_of_due {s : State} {j : Job} (hd : OrderDue s j ⟨0x70, []⟩ 0) (hj : FromHolder s j) :
    exec (.resetTraffic []) s = .next ((s.settle (.resetTraffic [])).resetTraffic.conclude
      { j with listEnd := some .reset, orderFrame := none } 0x70 .ok []) :=
  congrArg Host.Outcome.next (dealOrder_of_reset hd (holderOnly_of_fromHolder hj _ _))

/-- RESET-FULL from the holder, when it is due (R127, R167). -/
theorem exec_resetFull_of_due {s : State} {j : Job} (hd : OrderDue s j ⟨0x71, []⟩ 0) (hj : FromHolder s j) :
    exec (.resetFull []) s = .next ((s.settle (.resetFull [])).resetFull.conclude
      { j with listEnd := some .reset, orderFrame := none } 0x71 .ok []) :=
  congrArg Host.Outcome.next (dealOrder_of_reset hd (holderOnly_of_fromHolder hj _ _))

/-- Settles O5: one clause for each sentence of R1, the two resets by what `resetTraffic` and `resetFull` keep. -/
theorem stationAddress : Obligations.StationAddress := by
  unfold Obligations.StationAddress
  refine ⟨?hardReset, ?setStation, ?resetTraffic, ?resetFull⟩
  case hardReset => exact fun straps s => ⟨_, rfl, rfl⟩
  case setStation =>
    intro s j hi lo a hd hj h ha
    exact exec_setStation_of_due hd hj (stationOperand_of_half h ha)
  case resetTraffic => exact fun s j hd hj => ⟨_, exec_resetTraffic_of_due hd hj, by simp⟩
  case resetFull => exact fun s j hd hj => ⟨_, exec_resetFull_of_due hd hj, by simp⟩

end Sys2Proof.Machine
end

section
/-! SUPPORT. The family 07_management_sessions.md: RENEW and the expiry event of the lease it sets (R134, R136). -/

namespace Sys2Proof.Machine

open Sys2Proof

/-! ## The own checks and the effect of RENEW (R134, R143) -/

/-- RENEW from a station that is not the holder. -/
theorem renewBody_of_other {lease : Byte} {s : State} {j : Job} (hj : j.role = .own)
    (h : s.holder? ≠ some j.copy.src) : renewBody [lease] j s = (.result .notHolder [], s) :=
  holderOnly_of_other hj h

/-- RENEW from the holder with a lease of 0. -/
theorem renewBody_of_zero {s : State} {j : Job} (h : FromHolder s j) :
    renewBody [0] j s = (.result .badOperand [], s) := by
  rw [renewBody, holderOnly_of_holder h.1 h.2, if_pos rfl]
  rfl

/-- RENEW from the holder with a lease. -/
theorem renewBody_of_lease {lease : Byte} {s : State} {j : Job} {k : Claim} (h : FromHolder s j)
    (hk : s.claim = some k) (hl : lease ≠ 0) :
    renewBody [lease] j s = (.result .ok [lease], s.renewClaim k j lease) := by
  rw [renewBody, holderOnly_of_holder h.1 h.2, if_neg hl, hk]
  rfl

/-! ## The expiry event (R136) -/

/-- The claim record is empty after it is cleared. -/
@[simp] theorem clearClaim_claim (k : Claim) (s : State) : (s.clearClaim k).claim = none := rfl

/-- A lease expiry at another time than the expiry stamp has no effect (entry 5). -/
theorem exec_leaseExpiry_of_ne {s : State} {k : Claim} (hk : s.claim = some k) (h : k.expiry ≠ s.timebase) :
    exec .leaseExpiry s = .next s := by
  change execLeaseExpiry s = .next s
  simp [execLeaseExpiry, hk, h]

/-- A lease expiry at the expiry stamp clears the claim and requests CLAIM_EXPIRED. -/
theorem exec_leaseExpiry_of_eq {s : State} {k : Claim} (hk : s.claim = some k) (h : k.expiry = s.timebase) :
    exec .leaseExpiry s =
      .next ((s.clearClaim k).report { code := .claimExpired, port := some k.port }) := by
  change execLeaseExpiry s = _
  simp [execLeaseExpiry, hk, h]

/-! ## RENEW at the engine's position -/

/-- The holder, read off the claim record. -/
theorem holder?_of_claim {s : State} {k : Claim} (hk : s.claim = some k) : s.holder? = some k.holder := by
  rw [State.holder?, hk]
  rfl

/-- The claim after an accepted RENEW that is concluded: only expiry stamp and port are new (R134). -/
theorem conclude_renewClaim_claim (k : Claim) (j : Job) (lease : Byte) (s : State) :
    ((s.renewClaim k j lease).conclude j 0x03 .ok [lease]).claim =
      some { k with expiry := leaseEnd s.timebase lease, port := j.copy.port } :=
  conclude_claim ..

/-- Settles O34: the refusals and the new lease by the branches of RENEW's own checks; the expiry by the claim record
that RENEW leaves, whose stamp is the only one at which the event acts. -/
theorem renewLease : Obligations.RenewLease := by
  unfold Obligations.RenewLease
  intro s j lease hd hown u failed ends
  refine ⟨?notHolder, ?badOperand, ?renewed⟩
  case notHolder =>
    intro h
    exact congrArg Host.Outcome.next
      (dealOrder_of_refused hd (by decide) (by decide) (renewBody_of_other hown h))
  case badOperand =>
    rintro h rfl
    exact congrArg Host.Outcome.next
      (dealOrder_of_refused hd (by decide) (by decide) (renewBody_of_zero ⟨hown, h⟩))
  case renewed =>
    intro k hk hsrc hl
    have hj : FromHolder u j := ⟨hown, hsrc ▸ holder?_of_claim hk⟩
    have hclaim := conclude_renewClaim_claim k j lease u
    refine ⟨_, congrArg Host.Outcome.next (dealOrder_of_ok hd (renewBody_of_lease hj hk hl)), rfl, ?otherStamp, ?newStamp⟩
    case otherStamp => exact fun now hnow => exec_leaseExpiry_of_ne hclaim hnow.symm
    case newStamp => exact ⟨_, exec_leaseExpiry_of_eq hclaim rfl, by simp⟩

end Sys2Proof.Machine
end

section
/-! SUPPORT. The family 10_check_monitor.md: what a detection does to the check record, which detections the level
admits, and READ-CHECKS (R164, R187 to R189). -/

namespace Sys2Proof.Machine

open Sys2Proof

/-! ## Flags and location (R187) -/

/-- A record without a location takes that of the detection. -/
theorem note_location_of_none {m : CheckMonitor} (h : m.location = none) (x : Location) :
    (m.note x).location = some x := by
  simp [CheckMonitor.note, h]

/-- A more severe kind replaces the location. -/
theorem note_location_of_lt {m : CheckMonitor} {l x : Location} (h : m.location = some l)
    (hlt : l.severity < x.severity) : (m.note x).location = some x := by
  simp [CheckMonitor.note, h, hlt]

/-- The location stays at a detection that is not more severe. -/
theorem note_location_of_le {m : CheckMonitor} {l x : Location} (h : m.location = some l)
    (hle : x.severity ≤ l.severity) : (m.note x).location = some l := by
  simp [CheckMonitor.note, h, Nat.not_lt.mpr hle]

/-- The most severe flag set after a detection: the flag of its kind joins those that were set. -/
theorem note_top (m : CheckMonitor) (x : Location) : (m.note x).top = max m.top x.severity := by
  obtain ⟨ce, ue, tp, l, level⟩ := m
  revert ce ue tp
  cases x <;> simp [CheckMonitor.note, CheckMonitor.top, Location.severity]

/-- The location held after a detection is of the more severe of the two kinds; 0 stands for no location. -/
theorem note_location_severity (m : CheckMonitor) (x : Location) :
    ((m.note x).location.map Location.severity).getD 0 = max ((m.location.map Location.severity).getD 0) x.severity := by
  cases h : m.location with
  | none => simp [note_location_of_none h]
  | some l =>
    obtain hlt | hle := Nat.lt_or_ge l.severity x.severity
    · simp [note_location_of_lt h hlt, Nat.le_of_lt hlt]
    · simp [note_location_of_le h hle, hle]

/-- A detection keeps the law of the check record: location and flags both move to the more severe kind. -/
theorem detect_checkLaw {s : State} (h : CheckLaw s) (x : Location) (p : Port) (d : Option DequeNo)
    (m : Option Summary) : CheckLaw (s.detect x p d m).2 := by
  rw [CheckLaw, detect_check_eq, note_location_severity, note_top]
  exact congrArg (max · x.severity) h

/-! ## The request (R188, R189) -/

/-- A detection that the level admits is a request, and its answer that of the exception unit. -/
theorem detect_of_admitted {s : State} {x : Location} (h : s.check.admits x = true) (p : Port) (d : Option DequeNo)
    (m : Option Summary) :
    s.detect x p d m = { s with check := s.check.note x }.request (checkRequest x p d m) := by
  rw [State.detect, if_pos h]

/-- A detection that the level does not admit changes the check record alone. -/
theorem detect_of_not_admitted {s : State} {x : Location} (h : ¬ s.check.admits x = true) (p : Port)
    (d : Option DequeNo) (m : Option Summary) : s.detect x p d m = (none, { s with check := s.check.note x }) := by
  rw [State.detect, if_neg h]

/-- A detection requests a record of class CHECK. -/
@[simp] theorem checkRequest_cls (x : Location) (p : Port) (d : Option DequeNo) (m : Option Summary) :
    (checkRequest x p d m).code.cls = .check := by
  cases x <;> rfl

/-- The mask does not govern the class CHECK: such a request becomes a record, and the answer is its sequence (R171). -/
theorem request_answer_of_check {q : Request} (h : q.code.cls = .check) (s : State) :
    (s.request q).1 = some s.exc.counter := by
  have hallowed : s.exc.mask.allows q.code.cls = true := by rw [h]; rfl
  rw [request_of_allowed hallowed]

/-! ## READ-CHECKS at the engine's position (R164) -/

/-- READ-CHECKS, when it is due. -/
theorem exec_readChecks_of_due {s : State} {j : Job} (hd : OrderDue s j ⟨0x50, []⟩ 5) :
    exec (.readChecks []) s =
      .next ((s.settle (.readChecks [])).conclude j 0x50 .ok s.check.bytes) :=
  congrArg Host.Outcome.next (dealOrder_of_ok hd rfl)

/-- Settles O49: the table of R187 by the severities of the two kinds, its law by `detect_checkLaw`, and the request by
whether the level admits the kind. -/
theorem detectionTaken : Obligations.DetectionTaken := by
  unfold Obligations.DetectionTaken
  refine ⟨?table, ?law, ?request, ?readChecks⟩
  case table =>
    intro s x p d m
    rw [detect_check_eq]
    refine (CheckMonitor.mk.injEq ..).mpr ⟨rfl, rfl, rfl, ?location, rfl⟩
    cases s.check.location with
    | none => cases x <;> rfl
    | some l =>
      cases l with
      | ce _ => cases x <;> rfl
      | tp _ => cases x <;> rfl
      | ue _ => cases x <;> rfl
  case law => exact fun s x p d m h => detect_checkLaw h x p d m
  case request =>
    intro s x p d m noted least wanted
    have hnoted : noted = { s with check := s.check.note x } := by simp only [noted, detect_check_eq]
    have hwanted : wanted = checkRequest x p d m := by cases x <;> rfl
    have hadmits : s.check.admits x = true ↔ least ≤ s.check.level.val := by
      cases x <;> exact decide_eq_true_iff
    rw [hnoted, hwanted]
    refine ⟨fun h => ?admitted, fun h => ?notAdmitted, ?answer⟩
    case admitted => exact detect_of_admitted (hadmits.mpr h) p d m
    case notAdmitted => exact detect_of_not_admitted (fun ha => absurd (hadmits.mp ha) (Nat.not_le.mpr h)) p d m
    case answer => exact request_answer_of_check (checkRequest_cls x p d m) _
  case readChecks => exact fun s j hd => exec_readChecks_of_due hd

end Sys2Proof.Machine
end

section
/-! SUPPORT. What a step can do, said once: every step is a chain of the moves below, or it hands a good frame over to
admission between two such chains. Each law that every step keeps is then proved move by move. -/

namespace Sys2Proof.Machine

open Sys2Proof

/-! ## The moves -/

/-- The runs in range: the idle run below 32, the invalid run below 4 (R103). -/
def LinkState.inRange : LinkState → Prop
  | .down => True
  | .sync n => n ≤ 31
  | .up n => n ≤ 3

/-- A receiver that holds no frame. -/
def Receiver.empty (x : Receiver) : Prop := ∀ y, x ≠ .receiving y

/-- The record of the order frame that the engine holds. -/
def Engine.orderFrame? (e : Engine) : Option RecordNo := e.job?.bind (·.orderFrame)

/-- One change of the state, small enough that every law can be checked on it and whole enough that every law holds
again after it: a reference moves together with its holder, a cell together with the list it stands in. -/
inductive Move (s : State) : State → Prop
  /-- Time, debts, draws and the queue: no law looks at them. -/
  | bookkeeping (now : Stamp) (f : List Instr) (n : Nat) (q : List Instr) :
      Move s { s with timebase := now, follow := f, freeDraws := n, pending := q }
  | report (q : Request) : Move s (s.report q)
  | detect (x : Location) (p : Port) (d : Option DequeNo) (m : Option Summary) : Move s (s.detect x p d m).2
  | setEcc (c : CellNo) (x : Ecc) : Move s (s.setEcc c x)
  /-- A keyed entry changes: one that is VALID and sound then overlaps no other (R6, R16). -/
  | setEntry (i : EntryNo) (e : Entry) (h : ∀ k, e.body.soundKey? = some k → s.conflict i k = none) :
      Move s (s.setEntry i e)
  | defaults (x : PerPort DefaultEntry) : Move s { s with defaults := x }
  | station (a : Address) (h : a ≠ broadcast) : Move s { s with station := a }
  | setReporting (m : ClassMask) (l : Fin 4) (n : Bool) : Move s (s.setReporting m l n)
  | acknowledge (a : Byte) : Move s (s.acknowledge a)
  | clearChecks : Move s s.clearChecks
  /-- Signal, quiet period, held flag, markers and line output of a port. -/
  | portAside (p : Port) (y : PortState) (hl : y.link = (s.port p).link) (hr : y.receiver = (s.port p).receiver)
      (ht : y.transmitter = (s.port p).transmitter) (ha : y.admission = (s.port p).admission)
      (hw : y.lineWaits = (s.port p).lineWaits) : Move s (s.setPort p y)
  /-- The link state; a port whose link leaves UP holds nothing of it any more (R105). -/
  | link (p : Port) (l : LinkState) (hr : l.inRange)
      (hu : (s.port p).link.isUp = true → l.isUp = false →
        (s.port p).transmitter = .idle ∧ (s.port p).receiver.empty ∧ (s.port p).lineWaits = []) :
      Move s (s.setLink p l)
  /-- The groups that wait at a port. -/
  | lineWaits (p : Port) (w : List LineGroup)
      (hw : w ≠ [] → (s.port p).link.isUp = true ∨ (s.port p).lineWaits ≠ []) :
      Move s (s.updPort p fun y => { y with lineWaits := w })
  /-- A receiver takes a free record (R110). -/
  | beginFrame (p : Port) (r : RecordNo) (rest : List RecordNo) (hf : s.freeRecords = r :: rest)
      (he : (s.port p).receiver.empty) (hu : (s.port p).link.isUp = true ∨ (s.port p).lineWaits ≠ []) :
      Move s ({ s.setRecord r (.receiving ⟨[], p, s.timebase⟩) with freeRecords := rest }.setReceiver p
        (.receiving ⟨r, 0, false, []⟩))
  /-- A receiver gives its record back (R60). -/
  | giveBack (p : Port) (x : Reception) (y : Receiver) (hx : (s.port p).receiver = .receiving x) (hy : y.empty) :
      Move s ((s.returnReceived x.record).setReceiver p y)
  | emptyReceiver (p : Port) (y : Receiver) (he : (s.port p).receiver.empty) (hy : y.empty) :
      Move s (s.setReceiver p y)
  | markDamage (p : Port) (x : Reception) (hx : (s.port p).receiver = .receiving x) :
      Move s (s.setReceiver p (.receiving { x with damaged := true }))
  /-- A data byte enters a window that is not full (R111). -/
  | fillWindow (p : Port) (x : Reception) (b : Byte) (hx : (s.port p).receiver = .receiving x)
      (hw : x.window.length < 4) :
      Move s (s.setReceiver p (.receiving { x with lineBytes := x.lineBytes + 1, window := x.window ++ [b] }))
  /-- A data byte pushes the oldest of the window into the cell that the frame has (R111). -/
  | storeByte (p : Port) (x : Reception) (b o w0 w1 w2 : Byte) (tl : List Byte)
      (hx : (s.port p).receiver = .receiving x) (hn : x.lineBytes + 1 ≠ overlengthCount)
      (hw : x.window = o :: w0 :: w1 :: w2 :: tl) (hb : (x.lineBytes + 1 - 5) % 128 ≠ 0) :
      Move s ((s.storeByte x.record (x.lineBytes + 1 - 5) o).setReceiver p
        (.receiving { x with lineBytes := x.lineBytes + 1, window := [w0, w1, w2, b] }))
  /-- A data byte pushes the oldest of the window into a new cell (R56, R111). -/
  | storeInNewCell (p : Port) (x : Reception) (b o w0 w1 w2 : Byte) (tl : List Byte) (t : State)
      (hx : (s.port p).receiver = .receiving x) (hn : x.lineBytes + 1 ≠ overlengthCount)
      (hw : x.window = o :: w0 :: w1 :: w2 :: tl) (hb : (x.lineBytes + 1 - 5) % 128 = 0)
      (ht : s.takeCell x.record = some t) :
      Move s ((t.storeByte x.record (x.lineBytes + 1 - 5) o).setReceiver p
        (.receiving { x with lineBytes := x.lineBytes + 1, window := [w0, w1, w2, b] }))
  /-- An admission goes on with its frame (R68). -/
  | admission (p : Port) (a b : Admitting) (ha : (s.port p).admission = .admitting a) (hf : b.frame = a.frame)
      (hl : a.lawful → b.lawful) : Move s (s.setAdmission p (.admitting b))
  | admissionRelease (p : Port) (a : Admitting) (ha : (s.port p).admission = .admitting a) :
      Move s (s.admissionRelease p a.frame)
  | hopRule (r : RecordNo) (rule : HopRule) : Move s (s.applyHopRule r rule)
  /-- A record that has a holder arrives at a deque (R62). -/
  | arrive (d : DequeNo) (r : RecordNo) (e : Insertion) (hr : s.refs r ≠ 0) : Move s (s.arrive d r e).2
  | takeFrom (p : Port) (c : Choice) (ht : (s.port p).transmitter = .idle) (hu : (s.port p).link.isUp = true) :
      Move s (s.takeFrom p c)
  /-- A transmitter lets its frame go (R92, R94, R95). -/
  | stopSending (p : Port) (r : RecordNo) (d : DequeNo) (unread : List CellNo)
      (ht : (s.port p).transmitter = .sending r d unread) : Move s ((s.release r).setTransmitter p .idle)
  | readOn (p : Port) (r : RecordNo) (d : DequeNo) (unread rest : List CellNo)
      (ht : (s.port p).transmitter = .sending r d unread) (hs : rest <:+ unread) :
      Move s (s.setTransmitter p (.sending r d rest))
  /-- A drain takes the head of its deque (R45, R47). -/
  | drain (d : DequeNo) (target : DrainTarget) (n : Nat) (r : RecordNo) (rest : List RecordNo) (x : DequeState)
      (hs : (s.deque d).state = .draining target n) (he : (s.deque d).entries = r :: rest)
      (hx : x = .detached → rest = []) :
      Move s ((s.setDeque d { s.deque d with entries := rest, state := x }).release r)
  | dequeConfig (d : DequeNo) (c : DequeConfig) (hd : d.val < 28) (hs : (s.deque d).state = .detached) :
      Move s (s.setDeque d { s.deque d with config := c })
  | dequeState (d : DequeNo) (x : DequeState) (hd : d.val < 28) (hx : x = .detached → (s.deque d).entries = []) :
      Move s (s.setDequeState d x)
  | takeClaim (j : Job) (lease : Byte) (hc : s.claim = none) : Move s (s.takeClaim j lease)
  /-- The claim record changes, but for reply memory (R134, R138). -/
  | claim (k k' : Claim) (hk : s.claim = some k) (hm : k'.replyMemory = k.replyMemory) :
      Move s { s with claim := some k' }
  | clearClaim (k : Claim) (hk : s.claim = some k) : Move s (s.clearClaim k)
  | replyMemory (j : Job) (new : Option RecordNo) (hn : ∀ r, new = some r → s.engine.reply? = some r) :
      Move s (s.updateReplyMemory j new)
  /-- A running retry timer has a new stamp (R179). -/
  | retry (x : Stamp) (hr : s.exc.retry.isSome = true) : Move s { s with exc := { s.exc with retry := some x } }
  | notify (seqs : List Byte) : Move s (s.notify seqs)
  | dropNotice (n : Building) (hb : s.exc.building = some n) : Move s (s.dropNotice n.record)
  /-- A notice of at most four records is built and held as the one in building (R176). -/
  | buildNotice (h : Header) (rs : List ExceptionRecord) (r : RecordNo) (t : State) (dest : Address)
      (seqs : List Byte) (hb : s.exc.building = none) (hl : rs.length ≤ 4)
      (ht : s.build h (noticePayload rs) = some (r, t)) :
      Move s { t with exc := { t.exc with building := some ⟨r, dest, seqs⟩ } }
  /-- The engine takes the head of intake, with no results yet (R123). -/
  | takeOrder (r : RecordNo) (rest : List RecordNo) (j : Job) (status : FrameStatus) (next : ReplyStep)
      (he : s.engine = .idle) (hq : (s.deque intake).entries = r :: rest) (hj : j.orderFrame = some r)
      (hr : j.results = []) (hs : status ≠ .executed) (hn : next.reply? = none) :
      Move s { s.setDeque intake { s.deque intake with entries := rest } with engine := .replying j status next }
  /-- The engine goes on with the frames it holds (R122, R125, R130). -/
  | engine (e : Engine) (hf : e.orderFrame? = s.engine.orderFrame?) (hr : e.reply? = s.engine.reply?)
      (hl : ExceptionLaw s → EngineLaw s → EngineLaw { s with engine := e }) : Move s { s with engine := e }
  /-- A reply is built and held by the engine (R129). -/
  | buildReply (j : Job) (status : FrameStatus) (h : Header) (r : RecordNo) (t : State)
      (he : s.engine = .replying j status .build) (ht : s.build h (replyPayload status j.results) = some (r, t)) :
      Move s { t with engine := .replying j status (.memory (some r)) }
  /-- The engine lets reply and order frame go (R130 step 4). -/
  | releaseStep (j : Job) (status : FrameStatus) (next : ReplyStep) (he : s.engine = .replying j status next) :
      Move s (s.releaseStep j next.reply?)
  /-- RESET-TRAFFIC, with the engine holding no frame after it (R139, R166). -/
  | resetTraffic (e : Engine) (f : List Instr) (ho : e.orderFrame? = none) (hr : e.reply? = none)
      (hl : ExceptionLaw s → EngineLaw s → EngineLaw { s with engine := e }) :
      Move s { s.resetTraffic with engine := e, follow := f }
  /-- RESET-FULL, with the engine holding no frame after it (R139, R167). -/
  | resetFull (e : Engine) (f : List Instr) (ho : e.orderFrame? = none) (hr : e.reply? = none)
      (hl : ExceptionLaw s → EngineLaw s → EngineLaw { s with engine := e }) :
      Move s { s.resetFull with engine := e, follow := f }
  | hardReset (straps : BitVec 12) :
      Move s { State.reset with
        straps := straps, station := strapAddress straps, freeDraws := s.freeDraws, pending := s.pending }

/-- A good frame is handed over to an IDLE admission unit (R59, R69, R115). -/
inductive HandOver (s : State) : State → Prop
  | mk (p : Port) (x : Reception) (f : ReceivingFrame) (h : Header) (hr : (s.port p).receiver = .receiving x)
      (hf : s.record x.record = .receiving f) (ha : (s.port p).admission = .idle)
      (hg : endFault x (readStored f.cells s.mem 0 (x.lineBytes - 4)) = none) :
      HandOver s (s.handOver p x.record f (x.lineBytes - 4) h)

/-- A chain of moves. -/
def Moves : State → State → Prop := Relation.ReflTransGen Move

/-- Records and receivers are those of the other state: nothing has been received in between. -/
def SameReceptions (s t : State) : Prop :=
  t.records = s.records ∧ ∀ p, (t.port p).receiver = (s.port p).receiver

/-- What an event can do: a chain of moves, or a hand-over that only moves which receive nothing come before. -/
def Reaches (s t : State) : Prop :=
  Moves s t ∨ ∃ u v, Moves s u ∧ SameReceptions s u ∧ HandOver u v ∧ Moves v t

theorem Moves.refl (s : State) : Moves s s := Relation.ReflTransGen.refl

theorem Move.moves {s t : State} (h : Move s t) : Moves s t := Relation.ReflTransGen.single h

theorem Moves.trans {s t u : State} (h : Moves s t) (g : Moves t u) : Moves s u := Relation.ReflTransGen.trans h g

theorem Moves.andThen {s t u : State} (h : Moves s t) (g : Move t u) : Moves s u := Relation.ReflTransGen.tail h g

theorem Moves.reaches {s t : State} (h : Moves s t) : Reaches s t := .inl h

/-- What every move keeps, every chain of moves keeps. -/
theorem Moves.keeps {I : State → Prop} (hI : ∀ s t, I s → Move s t → I t) {s t : State} (h : Moves s t) (hs : I s) :
    I t := by
  induction h with
  | refl => exact hs
  | tail _ hm ih => exact hI _ _ ih hm

/-- What every move and every hand-over keep, every event keeps. -/
theorem Reaches.keeps {I : State → Prop} (hI : ∀ s t, I s → Move s t → I t) (hH : ∀ s t, I s → HandOver s t → I t)
    {s t : State} (h : Reaches s t) (hs : I s) : I t := by
  rcases h with h | ⟨u, v, h1, -, h2, h3⟩
  · exact h.keeps hI hs
  · exact h3.keeps hI (hH _ _ (h1.keeps hI hs) h2)

/-- Moves before and after an event belong to it, if those before receive nothing. -/
theorem Reaches.after {s t u : State} (h : Moves s t) (hr : SameReceptions s t) (g : Reaches t u) : Reaches s u := by
  rcases g with g | ⟨v, w, h1, h2, h3, h4⟩
  · exact .inl (h.trans g)
  · exact .inr ⟨v, w, h.trans h1, ⟨h2.1.trans hr.1, fun p => (h2.2 p).trans (hr.2 p)⟩, h3, h4⟩

theorem Reaches.andThen {s t u : State} (h : Reaches s t) (g : Moves t u) : Reaches s u := by
  rcases h with h | ⟨v, w, h1, h2, h3, h4⟩
  · exact .inl (h.trans g)
  · exact .inr ⟨v, w, h1, h2, h3, h4.trans g⟩

end Sys2Proof.Machine
end

section
namespace Sys2Proof.Machine

open Sys2Proof

/-! ## Holders -/

theorem one_pos {p : Prop} [Decidable p] (h : p) : one p = 1 := if_pos h

theorem refs_of_transmitter {s : State} {p : Port} {r : RecordNo} {d : DequeNo} {u : List CellNo}
    (h : (s.port p).transmitter = .sending r d u) : s.refs r ≠ 0 := by
  have : one ((s.port p).transmitter.holds r) = 1 := one_pos (by simp [h, Transmitter.holds])
  cases p <;> simp only [State.refs, State.portRefs] <;> omega

theorem refs_of_admission {s : State} {p : Port} {a : Admitting} (h : (s.port p).admission = .admitting a) :
    s.refs a.frame ≠ 0 := by
  have : one ((s.port p).admission.holds a.frame) = 1 := one_pos (by simp [h, AdmissionUnit.holds])
  cases p <;> simp only [State.refs, State.portRefs] <;> omega

theorem refs_of_reply {s : State} {r : RecordNo} (h : s.engine.reply? = some r) : s.refs r ≠ 0 := by
  have := one_pos h
  simp only [State.refs]; omega

theorem refs_of_building {s : State} {n : Building} (h : s.exc.building = some n) : s.refs n.record ≠ 0 := by
  have : one (s.exc.building.map (·.record) = some n.record) = 1 := one_pos (by rw [h]; rfl)
  simp only [State.refs]; omega

theorem refs_of_replyMemory {s : State} {k : Claim} {r : RecordNo} (hk : s.claim = some k)
    (h : k.replyMemory = some r) : s.refs r ≠ 0 := by
  have : one ((s.claim.bind (·.replyMemory)) = some r) = 1 := one_pos (by rw [hk]; exact h)
  simp only [State.refs]; omega

/-! ## Small operations -/

theorem moves_raise (c : Instr) (s : State) : Moves s (s.raise c) := (Move.bookkeeping ..).moves

theorem moves_settle (c : Instr) (s : State) : Moves s (s.settle c) := (Move.bookkeeping ..).moves

theorem moves_drawn (s : State) : Moves s s.drawn := (Move.bookkeeping ..).moves

theorem moves_tick (s : State) : Moves s s.tick := (Move.bookkeeping ..).moves

theorem moves_report (q : Request) (s : State) : Moves s (s.report q) := (Move.report q).moves

theorem moves_setLineOut (p : Port) (x : LineFrame) (s : State) : Moves s (s.setLineOut p x) :=
  (Move.portAside p { s.port p with lineOut := some x } rfl rfl rfl rfl rfl).moves

theorem moves_setHeld (p : Port) (b : Bool) (s : State) : Moves s (s.setHeld p b) :=
  (Move.portAside p { s.port p with held := b } rfl rfl rfl rfl rfl).moves

theorem moves_strikeOne (u : Upset) (s : State) : Moves s (s.strikeOne u) := by
  unfold State.strikeOne
  split
  · split
    · exact (Move.setEntry _ _ (by simp [EntryBody.soundKey?])).moves
    · exact (Move.setEntry _ _ (by simp [EntryBody.soundKey?])).moves
    · exact .refl s
  · split
    · exact (Move.setEcc ..).moves
    · exact .refl s
  · exact (Move.setEcc ..).moves

theorem moves_strike (us : List Upset) (s : State) : Moves s (s.strike us) := by
  induction us generalizing s with
  | nil => exact .refl s
  | cons u us ih => exact (moves_strikeOne u s).trans (ih _)

theorem moves_markSuspect (i : EntryNo) (x : Stored) (p : Port) (m : Option Summary) (s : State) :
    Moves s (s.markSuspect i x p m) :=
  (Move.setEntry i _ (by simp [EntryBody.soundKey?])).moves.andThen (.detect ..)

theorem moves_lookup (d : Address) (c : BitVec 3) (p q : Port) (m : Option Summary) (s : State) :
    Moves s (s.lookup d c p q m).2 := by
  unfold State.lookup
  split
  · exact .refl s
  · split
    · exact .refl s
    · exact moves_markSuspect ..
    · exact .refl s

theorem moves_offer (d : DequeNo) (s : State) : Moves s (s.offer d) := by
  unfold State.offer
  split
  · exact moves_raise ..
  · exact moves_raise ..
  · exact .refl s

theorem moves_checkedReads (p : Port) (d : DequeNo) (m : Option Summary) (cs : List CellNo) (s : State) :
    Moves s (s.checkedReads p d m cs).2 := by
  induction cs generalizing s with
  | nil => exact .refl s
  | cons c cs ih =>
    unfold State.checkedReads
    split
    · exact ih s
    · exact (Move.detect ..).moves.trans (ih _)
    · exact (Move.detect ..).moves

/-! ## Schedulers and transmitters -/

theorem moves_takeAttempt (p : Port) (s : State) : Moves s (s.takeAttempt p) := by
  unfold State.takeAttempt
  cases ht : (s.port p).transmitter with
  | sending r d u => exact .refl s
  | idle =>
    dsimp only
    split
    · rename_i hu
      split
      · exact (Move.takeFrom p _ ht hu).moves
      · exact .refl s
    · exact .refl s

theorem moves_endTransmission {p : Port} {r : RecordNo} {d : DequeNo} {u : List CellNo} {s : State}
    (ht : (s.port p).transmitter = .sending r d u) : Moves s (s.endTransmission p r) :=
  (Move.stopSending p r d u ht).moves.trans (moves_takeAttempt ..)

theorem moves_poisonedEnd {p : Port} {r : RecordNo} {d e : DequeNo} {u : List CellNo} {s : State}
    (ht : (s.port p).transmitter = .sending r d u) (c : CellNo) (x : Option Byte) :
    Moves s (s.poisonedEnd p r e c x) := by
  refine ((moves_setLineOut ..).trans (moves_report ..)).trans (moves_endTransmission (d := d) (u := u) ?_)
  simp [State.port, State.setLineOut, State.updPort] at ht ⊢
  exact ht

theorem checkedReads_port (p q : Port) (d : DequeNo) (m : Option Summary) (cs : List CellNo) (s : State) :
    (s.checkedReads p d m cs).2.port q = s.port q := by
  simp [State.port]

theorem moves_readCells {p : Port} {r : RecordNo} {d : DequeNo} {u : List CellNo} {s : State}
    (ht : (s.port p).transmitter = .sending r d u) (n : Nat) : Moves s (s.readCells p r d u n).2 := by
  have hm := moves_checkedReads p d (s.summaryOf r) (u.take n) s
  have hp := checkedReads_port p p d (s.summaryOf r) (u.take n) s
  unfold State.readCells
  split
  · rename_i t h
    rw [h] at hm hp
    exact hm.trans (moves_poisonedEnd (hp ▸ ht) _ _)
  · rename_i t h
    rw [h] at hm hp
    exact hm.andThen (.readOn p r d u _ (hp ▸ ht) (List.drop_suffix ..))

/-- A transmitter that has read on without an uncorrected error is still SENDING. -/
theorem readCells_transmitter {p : Port} {r : RecordNo} {d : DequeNo} {u : List CellNo} {n : Nat} {s t : State}
    (h : s.readCells p r d u n = (false, t)) : (t.port p).transmitter = .sending r d (u.drop n) := by
  unfold State.readCells at h
  split at h
  · cases h
  · cases h; simp [State.setTransmitter]

/-! ## Links -/

theorem moves_requeue {p : Port} {r : RecordNo} {s : State} (hr : s.refs r ≠ 0) (d : DequeNo) :
    Moves s (s.requeue p r d) := by
  have hm : Moves s (s.arrive d r .head).2 := (Move.arrive d r .head hr).moves
  unfold State.requeue
  split
  · split
    · rename_i t h; rw [h] at hm; exact hm
    · rename_i t h; rw [h] at hm; exact hm
    · rename_i t h; rw [h] at hm; exact hm.trans (moves_report ..)
    · rename_i t h; rw [h] at hm; exact hm.trans (moves_report ..)
  · exact moves_report ..

theorem requeue_port (p q : Port) (r : RecordNo) (d : DequeNo) (s : State) : (s.requeue p r d).port q = s.port q := by
  simp [State.port]

theorem cutLine_transmitter (p : Port) (r : RecordNo) (l : List CellNo) (s : State) :
    ((s.cutLine p r l).port p).transmitter = (s.port p).transmitter := by
  simp [State.cutLine, State.port, State.setLineOut, State.updPort]

theorem moves_abort (p : Port) (s : State) : Moves s (s.abort p) := by
  unfold State.abort
  cases ht : (s.port p).transmitter with
  | idle => exact .refl s
  | sending r d u =>
    have h1 : Moves s (s.cutLine p r u) := (moves_setLineOut ..).trans (moves_drawn ..)
    have ht1 : ((s.cutLine p r u).port p).transmitter = .sending r d u := (cutLine_transmitter ..).trans ht
    refine (h1.trans (moves_requeue (refs_of_transmitter ht1) d)).andThen (.stopSending p r d u ?_)
    rw [requeue_port]; exact ht1

theorem abort_transmitter (p : Port) (s : State) : ((s.abort p).port p).transmitter = .idle := by
  unfold State.abort
  split
  · assumption
  · simp [State.setTransmitter]

theorem not_receiving_idle : Receiver.idle.empty := fun _ h => nomatch h

theorem not_receiving_discarding : Receiver.discarding.empty := fun _ h => nomatch h

theorem moves_cutReception (p : Port) (s : State) : Moves s (s.cutReception p) := by
  unfold State.cutReception
  split
  · exact .refl s
  · rename_i x hx
    refine (moves_report ..).andThen (.giveBack p x .idle ?_ not_receiving_idle)
    simpa [State.portReport, State.port] using hx
  · rename_i hx
    exact (Move.emptyReceiver p .idle (fun y => by rw [hx]; exact not_receiving_discarding y) not_receiving_idle).moves

theorem cutReception_receiver (p : Port) (s : State) : ((s.cutReception p).port p).receiver = .idle := by
  unfold State.cutReception
  split
  · assumption
  · simp [State.setReceiver]
  · simp [State.setReceiver]

theorem cutReception_transmitter (p : Port) (s : State) :
    ((s.cutReception p).port p).transmitter = (s.port p).transmitter := by
  unfold State.cutReception
  split
  · rfl
  · simp [State.setReceiver, State.port, State.updPort]
  · simp [State.setReceiver]

theorem moves_leaveUp (p : Port) (s : State) : Moves s (s.leaveUp p) := by
  have h := (((moves_report ..).trans (moves_abort p (s.portReport p .linkDown))).trans (moves_cutReception p _)).andThen
    (.lineWaits p [] (by simp))
  refine h.andThen (.link p .down trivial fun _ _ => ⟨?_, ?_, ?_⟩)
  · simp [cutReception_transmitter, abort_transmitter]
  · simp only [updPort_port_same, cutReception_receiver]
    exact not_receiving_idle
  · simp

theorem moves_becomeUp (p : Port) (s : State) : Moves s (s.becomeUp p) :=
  ((Move.link p (.up 0) (Nat.zero_le 3) (by simp [LinkState.isUp])).moves.trans (moves_report ..)).trans
    (moves_takeAttempt ..)

/-! ## The receiver -/

theorem moves_beginFrame {p : Port} {s : State} (he : (s.port p).receiver.empty)
    (hu : (s.port p).link.isUp = true ∨ (s.port p).lineWaits ≠ []) : Moves s (s.beginFrame p) := by
  have refused : Moves s ((s.portReport p .noRecord).setReceiver p .discarding) := by
    refine (moves_report ..).andThen (.emptyReceiver p _ ?_ not_receiving_discarding)
    simpa [State.port] using he
  unfold State.beginFrame
  split
  · split
    · exact (Move.beginFrame p _ _ (by assumption) he hu).moves
    · exact refused
  · exact refused

/-- A start of frame takes no notice of what its receiver was. -/
theorem beginFrame_setReceiver (p : Port) (y : Receiver) (s : State) :
    (s.setReceiver p y).beginFrame p = s.beginFrame p := by
  have hr : ∀ q : Request, (s.setReceiver p y).report q = (s.report q).setReceiver p y := by
    intro q
    have := report_withPorts q (s.ports.set p { s.port p with receiver := y }) s
    simp only [State.withPorts] at this
    rw [State.setReceiver, State.updPort, State.setPort, this]
    simp [State.setReceiver, State.updPort, State.setPort, State.port]
  have hs : ∀ x (t : State), (t.setReceiver p y).setReceiver p x = t.setReceiver p x := by
    intro x t
    simp [State.setReceiver, State.updPort, State.setPort, State.port, PerPort.set_set]
  have hw : ∀ r x rest z, State.setReceiver p z { (s.setReceiver p y).setRecord r x with freeRecords := rest } =
      State.setReceiver p z { s.setRecord r x with freeRecords := rest } := by
    intro r x rest z
    exact hs z { s.setRecord r x with freeRecords := rest }
  have hf : (s.setReceiver p y).freeRecords = s.freeRecords := rfl
  have ht : (s.setReceiver p y).timebase = s.timebase := rfl
  unfold State.beginFrame
  rw [hf, ht]
  split
  · split
    · exact hw ..
    · rw [State.portReport, hr, hs]; rfl
  · rw [State.portReport, hr, hs]; rfl

theorem moves_giveUp {p : Port} {x : Reception} {s : State} (hx : (s.port p).receiver = .receiving x) (c : ExcCode) :
    Moves s (s.giveUp p x.record c) := by
  refine (moves_report ..).andThen (.giveBack p x .discarding ?_ not_receiving_discarding)
  simpa [State.portReport, State.port] using hx

theorem moves_receiveByte {p : Port} {x : Reception} {s : State} (hx : (s.port p).receiver = .receiving x) (b : Byte) :
    Moves s (s.receiveByte p x b) := by
  simp only [State.receiveByte]
  split
  · exact moves_giveUp hx _
  · rename_i hn
    split
    · rename_i o w0 w1 w2 tl hw
      split
      · rename_i hb
        split
        · rename_i t ht
          exact (Move.storeInNewCell p x b o w0 w1 w2 tl t hx hn hw hb ht).moves
        · exact moves_giveUp hx _
      · rename_i hb
        exact (Move.storeByte p x b o w0 w1 w2 tl hx hn hw hb).moves
    · rename_i w hw
      refine (Move.fillWindow p x b hx ?_).moves
      match h : x.window with
      | [] => simp
      | [_] => simp
      | [_, _] => simp
      | [_, _, _] => simp
      | o :: w0 :: w1 :: w2 :: tl => exact absurd h (hw o w0 w1 w2 tl)

theorem moves_takeStart {p : Port} {s : State} (hu : (s.port p).link.isUp = true ∨ (s.port p).lineWaits ≠ []) :
    Moves s (s.takeStart p) := by
  unfold State.takeStart
  split
  · rename_i x hx
    rw [← beginFrame_setReceiver p .idle]
    have h1 : Moves s (((s.portReport p .truncated).returnReceived x.record).setReceiver p .idle) := by
      refine (moves_report ..).andThen (.giveBack p x .idle ?_ not_receiving_idle)
      simpa [State.portReport, State.port] using hx
    refine h1.trans (moves_beginFrame ?_ ?_)
    · simp [State.setReceiver, not_receiving_idle]
    · simpa [State.setReceiver, State.port] using hu
  · rename_i hx
    exact moves_beginFrame hx hu

theorem sameReceptions_refl (s : State) : SameReceptions s s := ⟨rfl, fun _ => rfl⟩

theorem reaches_endReception {p : Port} {x : Reception} {s : State} (hx : (s.port p).receiver = .receiving x)
    (ha : (s.port p).admission = .idle) : Reaches s (s.endReception p x) := by
  unfold State.endReception
  split
  · rename_i f hf
    dsimp only
    split
    · rename_i h hg hd
      rw [readStored_length]
      exact .inr ⟨s, _, .refl s, sameReceptions_refl s, .mk p x f h hx hf ha hg, .refl _⟩
    · exact (Moves.refl s).reaches
    · refine ((moves_report ..).andThen (.giveBack p x .idle ?_ not_receiving_idle)).reaches
      simpa [State.port] using hx
  · exact (Moves.refl s).reaches

theorem reaches_takeGroup {p : Port} {s : State} (hu : (s.port p).link.isUp = true ∨ (s.port p).lineWaits ≠ [])
    (g : LineGroup) (ht : g = .finish → (s.port p).admission = .idle) : Reaches s (s.takeGroup p g) := by
  cases g with
  | start => exact (moves_takeStart hu).reaches
  | data b =>
    refine Moves.reaches ?_
    show Moves s (s.takeData p b)
    unfold State.takeData
    split
    · exact moves_receiveByte (by assumption) b
    · exact .refl s
  | invalid =>
    refine Moves.reaches ?_
    show Moves s (s.markDamage p)
    unfold State.markDamage
    split
    · exact (Move.markDamage p _ (by assumption)).moves
    · exact .refl s
  | finish =>
    show Reaches s (s.takeEnd p)
    unfold State.takeEnd
    split
    · exact reaches_endReception (by assumption) (ht rfl)
    · rename_i hx
      refine (Move.emptyReceiver p .idle ?_ not_receiving_idle).moves.reaches
      rw [hx]; exact not_receiving_discarding
    · exact (Moves.refl s).reaches

theorem takes_finish {y : PortState} : y.takes .finish = true ↔ y.admission = .idle := by
  unfold PortState.takes
  cases y.admission <;> simp

theorem reaches_reachReceiver {p : Port} {s : State} (hu : (s.port p).link.isUp = true) (g : LineGroup) :
    Reaches s (s.reachReceiver p g) := by
  unfold State.reachReceiver
  split
  · rename_i h
    exact reaches_takeGroup (.inl hu) g (by rintro rfl; exact takes_finish.mp h.2)
  · exact (Move.lineWaits p _ fun _ => .inl hu).moves.reaches

theorem moves_validGroup (p : Port) (s : State) : Moves s (s.validGroup p) := by
  unfold State.validGroup
  split
  · exact .refl s
  · rename_i h
    exact (Move.link p (.sync 0) (Nat.zero_le _) (by simp [h, LinkState.isUp])).moves
  · exact (Move.link p (.up 0) (Nat.zero_le _) (by simp [LinkState.isUp])).moves

theorem setLink_sameReceptions (p : Port) (l : LinkState) (s : State) : SameReceptions s (s.setLink p l) := by
  refine ⟨rfl, fun q => ?_⟩
  by_cases h : q = p
  · subst h; simp [State.setLink]
  · simp [State.setLink, updPort_port_of_ne _ _ h]

theorem validGroup_sameReceptions (p : Port) (s : State) : SameReceptions s (s.validGroup p) := by
  unfold State.validGroup
  split
  · exact sameReceptions_refl s
  · exact setLink_sameReceptions ..
  · exact setLink_sameReceptions ..

theorem reaches_lineGroup (p : Port) (g : LineGroup) (s : State) : Reaches s (s.lineGroup p g) := by
  simp only [State.lineGroup]
  split
  · rename_i hu
    exact (reaches_reachReceiver hu g).after (moves_validGroup p s) (validGroup_sameReceptions p s)
  · exact (moves_validGroup p s).reaches

/-- The first waiting group is taken as if it still waited, and then waits no more. -/
theorem takeWaiting_eq {p : Port} {s : State} {g : LineGroup} {rest : List LineGroup}
    (h : (s.port p).lineWaits = g :: rest) :
    s.takeWaiting p = (s.takeGroup p g).withLine p (s.port p).link rest := by
  rw [← takeGroup_withLine]
  unfold State.takeWaiting
  rw [h]
  rfl

end Sys2Proof.Machine
end

section
namespace Sys2Proof.Machine

open Sys2Proof

/-! ## Admission -/

theorem admission_of_ports {s t : State} (h : t.ports = s.ports) (p : Port) : t.port p = s.port p := by
  rw [State.port, h]; rfl

/-- What leaves the ports alone and is a chain of moves can come before the next step of an admission. -/
theorem Moves.admitNext {p : Port} {s t : State} {a : Admitting} (ha : (s.port p).admission = .admitting a)
    (h : Moves s t) (hp : t.ports = s.ports) {b : Admitting} {next : AdmitStep} (hf : b.frame = a.frame)
    (hl : a.lawful → ({ b with next := next } : Admitting).lawful) : Moves s (t.admitNext p b next) :=
  h.andThen (.admission p a _ (by rw [admission_of_ports hp]; exact ha) hf hl)

theorem moves_intakeAppend {p : Port} {r : RecordNo} {s : State} (hr : s.refs r ≠ 0) :
    Moves s (s.intakeAppend p r) := by
  have hm : Moves s (s.arrive intake r .tail).2 := (Move.arrive intake r .tail hr).moves
  unfold State.intakeAppend
  split <;> rename_i t h <;> rw [h] at hm
  · exact hm
  · exact hm
  · exact hm.trans (moves_report ..)
  · exact hm.trans (moves_report ..)

theorem moves_placeTarget {p : Port} {r : RecordNo} {s : State} (hr : s.refs r ≠ 0) (used : EntryUsed)
    (e : Insertion) (d : DequeNo) : Moves s (s.placeTarget p r used e d) := by
  have hm : Moves s (s.arrive d r e).2 := (Move.arrive d r e hr).moves
  unfold State.placeTarget
  split
  · exact moves_report ..
  · split <;> rename_i t h <;> rw [h] at hm
    · exact hm
    · exact hm
    · exact hm.trans (moves_report ..)
    · exact hm.trans (moves_report ..)

/-- A step of an admission whose frame is HELD. -/
theorem moves_admitHeld {p : Port} {s : State} {a : Admitting} (ha : (s.port p).admission = .admitting a)
    (h : Header) : Moves s (s.admitHeld p a h) := by
  have hr : s.refs a.frame ≠ 0 := refs_of_admission ha
  have done : Moves s (s.admissionRelease p a.frame) := (Move.admissionRelease p a ha).moves
  obtain ⟨frame, read, path, result, target, next⟩ := a
  unfold State.admitHeld
  cases next with
  | append =>
    refine (moves_intakeAppend hr).admitNext ha (by simp) rfl ?_
    cases path <;> simp [Admitting.lawful]
  | misdirect =>
    refine (moves_report ..).admitNext ha (by simp) rfl ?_
    simp +contextual [Admitting.lawful]
  | hopCheck =>
    simp only [State.hopStep]
    split
    · refine (moves_report ..).admitNext ha (by simp) rfl ?_
      simp +contextual [Admitting.lawful]
    · refine (Moves.refl s).admitNext ha rfl rfl ?_
      simp +contextual [Admitting.lawful]
  | lookup =>
    simp only [State.lookupStep]
    refine (moves_lookup ..).admitNext ha (by simp) rfl ?_
    simp +contextual [Admitting.lawful]
  | act =>
    cases result with
    | none => exact done
    | some x =>
      simp only [State.actStep]
      split
      · refine (Moves.refl s).admitNext ha rfl rfl ?_
        simp +contextual [Admitting.lawful]
      · refine (moves_report ..).admitNext ha (by simp) rfl ?_
        simp +contextual [Admitting.lawful]
      · refine (Move.hopRule ..).moves.admitNext ha (by simp) rfl ?_
        simp +contextual [Admitting.lawful, mostTargets]
  | place =>
    cases result with
    | none => exact done
    | some x =>
      cases target with
      | none => exact done
      | some k =>
        simp only [State.placeStep]
        split
        · refine (Moves.refl s).admitNext ha rfl rfl ?_
          simp +contextual [Admitting.lawful]
        · have hm := moves_placeTarget (p := p) hr x.used x.disposition.insertion (general ‹_›)
          split
          · rename_i hk
            refine hm.admitNext ha (by simp) rfl ?_
            simp only [Admitting.lawful]
            rintro ⟨-, -, h3⟩
            exact ⟨by simp, fun _ hk' => by cases hk'; exact ⟨Nat.le_add_left .., hk.2⟩, h3⟩
          · refine hm.admitNext ha (by simp) rfl ?_
            simp +contextual [Admitting.lawful]
  | release => exact done

theorem moves_admitStep (p : Port) (s : State) : Moves s (s.admitStep p) := by
  unfold State.admitStep
  cases ha : (s.port p).admission with
  | idle => exact .refl s
  | admitting a =>
    dsimp only
    split
    · exact moves_admitHeld ha _
    · exact (Move.admissionRelease p a ha).moves

/-! ## Notices -/

theorem moves_noticeUndelivered (p : Port) (l : List Byte) (s : State) : Moves s (s.noticeUndelivered p l) := by
  unfold State.noticeUndelivered
  split
  · exact .refl s
  · exact moves_report ..

theorem moves_attemptAgain (s : State) : Moves s s.attemptAgain := by
  unfold State.attemptAgain
  split
  · exact .refl s
  · exact moves_raise ..

theorem moves_deliveryAttempt (s : State) : Moves s s.deliveryAttempt := by
  unfold State.deliveryAttempt
  split
  · rename_i hb
    split
    · simp only [State.deliver]
      split
      · rename_i hr
        exact (Move.buildNotice _ _ _ _ _ _ hb (List.length_take_le ..) hr).moves.trans (moves_raise ..)
      · exact moves_noticeUndelivered ..
    · exact .refl s
  · exact .refl s

/-- The arrival of another block's frame leaves the notice in building where it is. -/
theorem report_building (q : Request) (s : State) : (s.report q).exc.building = s.exc.building := by
  unfold State.report State.request
  split
  · dsimp only
    split <;> rfl
  · rfl

theorem shedInto_building (d : DequeNo) (r : RecordNo) (e : Insertion) (v : RecordNo) (rest : List RecordNo)
    (s : State) : (s.shedInto d r e v rest).exc.building = s.exc.building := by
  simp [State.shedInto, report_building]

theorem arrive_building (d : DequeNo) (r : RecordNo) (e : Insertion) (s : State) :
    (s.arrive d r e).2.exc.building = s.exc.building := by
  simp only [State.arrive]
  repeat' split
  all_goals simp [shedInto_building]

theorem moves_dropNotice {n : Building} {s : State} (hb : s.exc.building = some n) :
    Moves s (s.dropNotice n.record) :=
  (Move.dropNotice n hb).moves

theorem moves_placeFor {n : Building} {s : State} (hb : s.exc.building = some n) (k : Claim) :
    Moves s (s.placeFor k n) := by
  have hm : Moves s (s.arrive (controlDeque k.port) n.record .tail).2 :=
    (Move.arrive _ _ _ (refs_of_building hb)).moves
  have hbt := (arrive_building (controlDeque k.port) n.record .tail s).trans hb
  unfold State.placeFor
  split <;> rename_i t h <;> rw [h] at hm hbt
  · exact ((hm.andThen (.notify n.seqs)).trans (moves_dropNotice (n := n) hbt)).trans (moves_attemptAgain _)
  · exact hm.trans (moves_dropNotice hbt)
  · exact (hm.trans (moves_dropNotice hbt)).trans (moves_noticeUndelivered ..)
  · exact (hm.trans (moves_dropNotice hbt)).trans (moves_noticeUndelivered ..)

theorem moves_placeNotice {n : Building} {s : State} (hb : s.exc.building = some n) : Moves s (s.placeNotice n) := by
  have aside := (moves_dropNotice hb).trans (moves_attemptAgain _)
  unfold State.placeNotice
  split
  · split
    · exact moves_placeFor hb _
    · exact aside
  · exact aside

/-! ## Operations beside the engine -/

/-- The engine of a state replaced. -/
def State.withEngine (e : Engine) (s : State) : State := { s with engine := e }

theorem report_withEngine (q : Request) (e : Engine) (s : State) :
    (s.withEngine e).report q = (s.report q).withEngine e := by
  have h : (s.withEngine e).exc = s.exc := rfl
  unfold State.report State.request
  rw [h]
  split
  · dsimp only
    split <;> rfl
  · rfl

theorem release_withEngine (r : RecordNo) (e : Engine) (s : State) :
    (s.withEngine e).release r = (s.release r).withEngine e := by
  have h : (s.withEngine e).record r = s.record r := rfl
  unfold State.release
  rw [h]
  split
  · split <;> rfl
  · rfl

theorem addRef_withEngine (r : RecordNo) (e : Engine) (s : State) :
    (s.withEngine e).addRef r = (s.addRef r).withEngine e := by
  have h : (s.withEngine e).record r = s.record r := rfl
  unfold State.addRef
  rw [h]
  split <;> rfl

theorem offer_withEngine (d : DequeNo) (e : Engine) (s : State) :
    (s.withEngine e).offer d = (s.offer d).withEngine e := by
  have h : (s.withEngine e).deque d = s.deque d := rfl
  unfold State.offer
  rw [h]
  split <;> rfl

theorem setDeque_withEngine (d : DequeNo) (x : Deque) (e : Engine) (s : State) :
    (s.withEngine e).setDeque d x = (s.setDeque d x).withEngine e := rfl

theorem shedInto_withEngine (d : DequeNo) (r : RecordNo) (i : Insertion) (v : RecordNo) (rest : List RecordNo)
    (e : Engine) (s : State) : (s.withEngine e).shedInto d r i v rest = (s.shedInto d r i v rest).withEngine e := by
  have h1 : (s.withEngine e).deque d = s.deque d := rfl
  have h2 : (s.withEngine e).summaryOf v = s.summaryOf v := rfl
  have h3 : ∀ t : State, (t.withEngine e).deque d = t.deque d := fun _ => rfl
  simp only [State.shedInto, h1, h2, h3, report_withEngine, setDeque_withEngine, release_withEngine, addRef_withEngine]

theorem arrive_withEngine (d : DequeNo) (r : RecordNo) (i : Insertion) (e : Engine) (s : State) :
    (s.withEngine e).arrive d r i = ((s.arrive d r i).1, (s.arrive d r i).2.withEngine e) := by
  have h : (s.withEngine e).deque d = s.deque d := rfl
  simp only [State.arrive, h, setDeque_withEngine, addRef_withEngine, offer_withEngine, shedInto_withEngine]
  repeat' split
  all_goals rfl

theorem build_withEngine (h : Header) (payload : List Byte) (e : Engine) (s : State) :
    (s.withEngine e).build h payload = (s.build h payload).map fun x => (x.1, x.2.withEngine e) := by
  have h1 : (s.withEngine e).freeRecords = s.freeRecords := rfl
  have h2 : (s.withEngine e).freeCells = s.freeCells := rfl
  unfold State.build
  rw [h1, h2]
  split
  · rfl
  · dsimp only
    split <;> rfl

theorem detect_withEngine (x : Location) (p : Port) (d : Option DequeNo) (m : Option Summary) (e : Engine)
    (s : State) : (s.withEngine e).detect x p d m = ((s.detect x p d m).1, (s.detect x p d m).2.withEngine e) := by
  have h : (s.withEngine e).check = s.check := rfl
  have hq : ∀ (q : Request) (t : State),
      (t.withEngine e).request q = ((t.request q).1, (t.request q).2.withEngine e) := by
    intro q t
    refine Prod.ext ?_ (report_withEngine q e t)
    have : (t.withEngine e).exc = t.exc := rfl
    unfold State.request
    rw [this]
    split <;> rfl
  unfold State.detect
  rw [h]
  dsimp only
  split
  · exact hq _ { s with check := s.check.note x }
  · rfl

theorem checkedReads_withEngine (p : Port) (d : DequeNo) (m : Option Summary) (cs : List CellNo) (e : Engine)
    (s : State) : (s.withEngine e).checkedReads p d m cs =
      ((s.checkedReads p d m cs).1, (s.checkedReads p d m cs).2.withEngine e) := by
  induction cs generalizing s with
  | nil => rfl
  | cons c cs ih =>
    have h : (s.withEngine e).eccOf c = s.eccOf c := rfl
    unfold State.checkedReads
    rw [h, detect_withEngine, detect_withEngine]
    cases s.eccOf c with
    | sound => exact ih s
    | corrected => exact ih _
    | uncorrected => rfl

theorem placeReply_withEngine (j : Job) (r : RecordNo) (e : Engine) (s : State) :
    (s.withEngine e).placeReply j r = (s.placeReply j r).withEngine e := by
  unfold State.placeReply
  rw [arrive_withEngine]
  cases s.arrive (controlDeque j.copy.port) r .tail with
  | mk a t =>
    cases a with
    | accepted => rfl
    | alreadyPresent => rfl
    | dequeFull => exact report_withEngine ..
    | dequeClosed => exact report_withEngine ..

theorem finish_withEngine (j : Job) (e : Engine) (s : State) : (s.withEngine e).finish j = s.finish j := by
  simp only [State.finish]
  cases j.orderFrame with
  | none => rfl
  | some r => simp only [release_withEngine]; rfl

/-! ## The reply -/

theorem moves_placeReply {j : Job} {r : RecordNo} {s : State} (hr : s.refs r ≠ 0) : Moves s (s.placeReply j r) := by
  have hm : Moves s (s.arrive (controlDeque j.copy.port) r .tail).2 := (Move.arrive _ _ _ hr).moves
  unfold State.placeReply
  split <;> rename_i t h <;> rw [h] at hm
  · exact hm
  · exact hm
  · exact hm.trans (moves_report ..)
  · exact hm.trans (moves_report ..)

/-- The engine goes on to another step of the reply with the frames it holds. -/
theorem moves_replyNext {j : Job} {status : FrameStatus} {step next : ReplyStep} {s t : State}
    (he : s.engine = .replying j status step) (ht : t.engine = s.engine) (h : Moves s t)
    (hn : next.reply? = step.reply?) : Moves s (t.replyNext j status next) := by
  rw [he] at ht
  refine (h.andThen (.engine (.replying j status next) ?_ ?_ ?_)).trans (moves_raise ..)
  · rw [ht]; rfl
  · rw [ht]; exact hn
  · intro _ hl
    simpa only [EngineLaw, ht] using hl

theorem moves_replyStep {j : Job} {status : FrameStatus} {step : ReplyStep} {s : State}
    (he : s.engine = .replying j status step) : Moves s (s.replyStep j status step) := by
  cases step with
  | build =>
    show Moves s (s.buildStep j status)
    unfold State.buildStep
    split
    · rename_i r t ht
      exact (Move.buildReply j status _ r t he ht).moves.trans (moves_raise ..)
    · exact moves_replyNext he (by simp) (moves_report ..) rfl
  | memory new =>
    refine moves_replyNext he (by simp) (Move.replyMemory j new ?_).moves ?_
    · intro r hr; rw [he]; exact hr
    · cases new <;> rfl
  | placement r =>
    exact moves_replyNext he (by simp) (moves_placeReply (refs_of_reply (by rw [he]; rfl))) rfl
  | release new => exact (Move.releaseStep j status _ he).moves

end Sys2Proof.Machine
end

section
namespace Sys2Proof.Machine

open Sys2Proof

/-! ## The end of an order -/

theorem advance_orderFrame (j : Job) (s : State) : (s.advance j).engine.orderFrame? = j.orderFrame := by
  unfold State.advance
  split <;> rfl

theorem advance_reply (j : Job) (s : State) : (s.advance j).engine.reply? = none := by
  unfold State.advance
  split <;> rfl

/-- The law of a job that has dealt with the orders up to its position survives the go-on. -/
theorem advance_engineLaw {j : Job} (hl : j.lawful j.position) (hp : j.position ≤ j.orders.length) (s : State) :
    EngineLaw (s.advance j) := by
  unfold State.advance
  split
  · rename_i o ho
    have hlt : j.position < j.orders.length := (List.getElem?_eq_some_iff.mp ho).1
    exact ⟨Nat.le_add_left .., hlt, hl⟩
  · rename_i ho
    have hle : j.orders.length ≤ j.position := List.getElem?_eq_none_iff.mp ho
    have heq : j.position = j.orders.length := Nat.le_antisymm hp hle
    rw [heq] at hl
    exact hl

/-- The engine goes on with a job whose frame it holds. -/
theorem moves_advance {j : Job} {s : State} (hf : s.engine.orderFrame? = j.orderFrame) (hr : s.engine.reply? = none)
    (hl : ExceptionLaw s → EngineLaw s → j.lawful j.position ∧ j.position ≤ j.orders.length) :
    Moves s (s.advance j) := by
  rw [advance_shape]
  refine Moves.andThen (t := { s with engine := (s.advance j).engine }) (Move.moves ?_)
    (.bookkeeping s.timebase _ s.freeDraws s.pending)
  refine .engine _ ((advance_orderFrame j s).trans hf.symm) ((advance_reply j s).trans hr.symm) fun hx he => ?_
  obtain ⟨h1, h2⟩ := hl hx he
  exact advance_engineLaw h1 h2 s

/-- A result that fits leaves the job lawful. -/
theorem Job.lawful_conclude {j : Job} (hl : j.lawful (j.position - 1)) (hp : 1 ≤ j.position) {code : Byte}
    {status : Status} {data : List Byte} (hd : j.dataUsed + data.length + j.fixedParts ≤ replyRoom) (l : Option ListEnd)
    (o : Option RecordNo) :
    ({ j with
      results := j.results ++ [⟨code, status, data⟩], dataUsed := j.dataUsed + data.length, listEnd := l,
      orderFrame := o } : Job).lawful j.position := by
  obtain ⟨h1, h2, h3, -⟩ := hl
  refine ⟨h1, ?_, ?_, hd⟩
  · simp only [List.length_append, List.length_singleton, h2]
    omega
  · simp [Job.dataBytes, h3]

/-- The job of an engine that executes its list, or waits in it for a drain. -/
theorem EngineLaw.job {s : State} {j : Job} (h : EngineLaw s) (he : s.engine = .executing j ∨ s.engine = .drainWait j) :
    1 ≤ j.position ∧ j.position ≤ j.orders.length ∧ j.lawful (j.position - 1) := by
  rcases he with he | he <;> simp only [EngineLaw, he] at h
  · exact h
  · exact ⟨h.1, h.2.1, h.2.2.1⟩

/-- The job that an engine in its list holds. -/
theorem job_orderFrame {s : State} {j : Job} (he : s.engine = .executing j ∨ s.engine = .drainWait j) :
    s.engine.orderFrame? = j.orderFrame ∧ s.engine.reply? = none := by
  rcases he with he | he <;> rw [he] <;> exact ⟨rfl, rfl⟩

theorem moves_conclude {j : Job} {s : State} (he : s.engine = .executing j ∨ s.engine = .drainWait j) (l : Option ListEnd)
    (code : Byte) (status : Status) {data : List Byte}
    (hd : ExceptionLaw s → EngineLaw s → j.dataUsed + data.length + j.fixedParts ≤ replyRoom) :
    Moves s (s.conclude { j with listEnd := l } code status data) := by
  obtain ⟨hf, hr⟩ := job_orderFrame he
  refine moves_advance hf hr fun hx hl => ?_
  obtain ⟨h1, h2, h3⟩ := hl.job he
  exact ⟨Job.lawful_conclude h3 h1 (hd hx hl) l j.orderFrame, h2⟩

/-! ## What an order's own checks and effect can come to -/

/-- What a body can answer: a result that fits, a reset, or a wait for a drain. -/
inductive BodyOutcome (greatest : Nat) (s : State) : Answer × State → Prop
  | result (status : Status) (data : List Byte) (t : State) (hm : Moves s t) (he : t.engine = s.engine)
      (hd : ExceptionLaw t → data.length ≤ greatest) : BodyOutcome greatest s (.result status data, t)
  | resetTraffic : BodyOutcome greatest s (.reset, s.resetTraffic)
  | resetFull : BodyOutcome greatest s (.reset, s.resetFull)
  | wait (t : State) (hm : Moves s t) (he : t.engine = s.engine) (hg : 1 ≤ greatest) : BodyOutcome greatest s (.wait, t)

theorem bodyOutcome_refuse (greatest : Nat) (status : Status) (s : State) :
    BodyOutcome greatest s (refuse status s) :=
  .result status [] s (.refl s) rfl fun _ => Nat.zero_le _

theorem bodyOutcome_accept {greatest : Nat} {s t : State} {data : List Byte} (hm : Moves s t)
    (he : t.engine = s.engine) (hd : data.length ≤ greatest) : BodyOutcome greatest s (accept data t) :=
  .result .ok data t hm he fun _ => hd

theorem bodyOutcome_notBroadcast {greatest : Nat} {s : State} {j : Job} {body : Body}
    (h : BodyOutcome greatest s (body j s)) : BodyOutcome greatest s (notBroadcast body j s) := by
  unfold notBroadcast
  split
  · exact bodyOutcome_refuse ..
  · exact h

theorem bodyOutcome_holderOnly {greatest : Nat} {s : State} {j : Job} {body : Body}
    (h : BodyOutcome greatest s (body j s)) : BodyOutcome greatest s (holderOnly body j s) := by
  refine bodyOutcome_notBroadcast ?_
  split
  · exact h
  · exact bodyOutcome_refuse ..

/-- A reset and the end of its order, in one move: the engine holds no frame between them. -/
theorem reset_conclude {s t : State} {j : Job} (hs : s.engine = .executing j)
    (hroom : j.dataUsed + j.fixedParts ≤ replyRoom) (code : Byte) :
    ∃ e f, t.conclude { j with listEnd := some .reset, orderFrame := none } code .ok [] =
        { t with engine := e, follow := f } ∧ e.orderFrame? = none ∧ e.reply? = none ∧
      (ExceptionLaw s → EngineLaw s → EngineLaw { s with engine := e }) := by
  refine ⟨_, _, conclude_shape .., advance_orderFrame .., advance_reply .., fun _ hl => ?_⟩
  obtain ⟨h1, h2, h3⟩ := hl.job (.inl hs)
  exact advance_engineLaw (Job.lawful_conclude h3 h1 (by simpa using hroom) (some .reset) none) h2 t

/-- An order whose body can come to nothing else is dealt with in moves. -/
theorem moves_runBody {j : Job} {body : Body} {greatest : Nat} {s : State} (hs : s.engine = .executing j)
    (hroom : j.dataUsed + greatest + j.fixedParts ≤ replyRoom) (hb : BodyOutcome greatest s (body j s)) (code : Byte) :
    Moves s (s.runBody j code body) := by
  unfold State.runBody
  generalize body j s = x at hb
  cases hb with
  | result status data t hm he hd =>
    exact hm.trans (moves_conclude (.inl (he.trans hs)) _ code status fun hx _ => by have := hd hx; omega)
  | resetTraffic =>
    obtain ⟨e, f, heq, ho, hr, hl⟩ := reset_conclude hs (t := s.resetTraffic) (by omega) code
    dsimp only
    rw [heq]
    exact (Move.resetTraffic e f ho hr hl).moves
  | resetFull =>
    obtain ⟨e, f, heq, ho, hr, hl⟩ := reset_conclude hs (t := s.resetFull) (by omega) code
    dsimp only
    rw [heq]
    exact (Move.resetFull e f ho hr hl).moves
  | wait t hm he hg =>
    refine hm.andThen (.engine (.drainWait j) (by rw [he, hs]; rfl) (by rw [he, hs]; rfl) fun _ hl => ?_)
    obtain ⟨h1, h2, h3⟩ := hl.job (.inl (he.trans hs))
    exact ⟨h1, h2, h3, by omega⟩

theorem moves_deal {j : Job} {body : Body} {greatest : Nat} {s : State} (hs : s.engine = .executing j)
    (hb : BodyOutcome greatest s (body j s)) (code : Byte) : Moves s (s.deal j code greatest body) := by
  have answered : ∀ l status, Moves s (s.conclude { j with listEnd := l } code status []) := fun l status =>
    moves_conclude (.inl hs) l code status fun _ hl => by
      obtain ⟨-, -, -, -, -, h⟩ := hl.job (.inl hs)
      simpa using h
  unfold State.deal
  split
  · exact answered j.listEnd .noRoom
  · exact answered j.listEnd .skipped
  · exact answered j.listEnd .skipped
  · split
    · exact answered (some .noRoom) .noRoom
    · exact moves_runBody hs (by omega) hb code

/-- Every order command is a chain of moves, if its body is. -/
theorem moves_dealOrder {body : Body} {greatest : Nat} (hb : ∀ j s, BodyOutcome greatest s (body j s)) (o : Order)
    (s : State) : Moves s (s.dealOrder o greatest body) := by
  refine (moves_settle (orderCommand o) s).trans ?_
  simp only [State.dealOrder]
  split
  · rename_i j hj
    split
    · exact moves_deal hj (hb ..) o.code
    · exact .refl _
  · exact .refl _

/-! ## Drains -/

theorem moves_drainComplete (n : Nat) (s : State) : Moves s (s.drainComplete n) := by
  unfold State.drainComplete
  split
  · rename_i j hj
    split
    · refine moves_conclude (.inr hj) j.listEnd _ .ok fun _ hl => ?_
      simp only [EngineLaw, hj] at hl
      simpa using hl.2.2.2
    · exact .refl s
  · exact .refl s

theorem moves_drainRemoval (d : DequeNo) (s : State) : Moves s (s.drainRemoval d) := by
  unfold State.drainRemoval
  split
  · rename_i target n r hs he
    exact (((Move.drain d target n r [] target.state hs he fun _ => rfl).moves).trans (moves_offer ..)).trans
      (moves_drainComplete ..)
  · rename_i target n r r' rest hs he
    exact (Move.drain d target n r (r' :: rest) (.draining target (n + 1)) hs he (fun h => nomatch h)).moves.trans
      (moves_raise ..)
  · exact .refl s

/-! ## The take of an order frame -/

theorem framing_cons_list {code len : Byte} {at_ room : Nat} {rest : List Byte} {os : List Order}
    (h : frameOrders (room + 1) at_ (code :: len :: rest) = .list os) :
    ∃ o os', os = o :: os' ∧ frameOrders room (at_ + 2 + len.toNat) (rest.drop len.toNat) = .list os' := by
  unfold frameOrders at h
  split at h
  · cases h
  · split at h
    · rename_i os' hos
      cases h
      exact ⟨_, os', rfl, hos⟩
    · cases h

theorem frameOrders_length_le {room at_ : Nat} {bytes : List Byte} {os : List Order}
    (h : frameOrders room at_ bytes = .list os) : os.length ≤ room := by
  induction room generalizing at_ bytes os with
  | zero =>
    cases bytes <;> simp only [frameOrders] at h <;> cases h
    exact Nat.le_refl 0
  | succ room ih =>
    match bytes with
    | [] => simp only [frameOrders] at h; cases h; exact Nat.zero_le _
    | [_] => simp only [frameOrders] at h; cases h
    | code :: len :: rest =>
      obtain ⟨o, os', rfl, hos⟩ := framing_cons_list h
      exact Nat.succ_le_succ (ih hos)

/-- A list of more than 16 orders is malformed (R124). -/
theorem framePayload_length_le {payload : List Byte} {os : List Order} (h : framePayload payload = .list os) :
    os.length ≤ 16 := by
  unfold framePayload at h
  split at h
  · cases h
  · exact frameOrders_length_le h

/-- The engine at the take of an order frame, before it is known what becomes of it. -/
def taking (j : Job) (next : ReplyStep) : Engine := .replying j .replayLost next

/-- A chain of moves that ends beside the engine can go on with another state of the engine. -/
theorem Moves.reengine {s t : State} {j : Job} {next : ReplyStep} (h : Moves s (t.withEngine (taking j next)))
    (hn : next.reply? = none) {e : Engine} (hf : e.orderFrame? = j.orderFrame) (hr : e.reply? = none)
    (hl : EngineLaw { t with engine := e }) : Moves s { t with engine := e } :=
  h.andThen (.engine (s := t.withEngine (taking j next)) e hf (hr.trans hn.symm) fun _ _ => hl)

/-- A request made beside the engine. -/
theorem Moves.report_beside {s t : State} {e : Engine} (h : Moves s (t.withEngine e)) (q : Request) :
    Moves s ((t.report q).withEngine e) := by
  rw [← report_withEngine]
  exact h.andThen (.report q)

theorem moves_parse {s t : State} {r : RecordNo} {h : Header} {p : Port}
    (ht : Moves s (t.withEngine (taking (newJob r h p) .build))) (f : HeldFrame) :
    Moves s (t.parse (newJob r h p) f) := by
  simp only [State.parse]
  have hm := ht.trans (moves_checkedReads p intake (some (newJob r h p).summary)
    (t.parseCells f (readStored f.cells t.mem 8 (f.length - 8))) _)
  rw [checkedReads_withEngine] at hm
  have replies : ∀ (u : State) (c : ExcCode) (d : Option CellNo) (x : Option Byte) (status : FrameStatus),
      status ≠ .executed → Moves s (u.withEngine (taking (newJob r h p) .build)) →
      Moves s ((u.parseReport (newJob r h p) c d x).replyWith (newJob r h p) status) := by
    intro u c d x status hs hu
    refine ((hu.report_beside _).reengine rfl (e := .replying (newJob r h p) status .build) rfl rfl ?_).trans (moves_raise ..)
    simp [EngineLaw, hs, newJob]
  rw [show (newJob r h p).copy.port = p from rfl]
  split
  · rename_i c chain u hu
    rw [hu] at hm
    exact replies u _ _ _ _ (by simp) hm
  · rename_i u hu
    rw [hu] at hm
    split
    · exact replies u _ _ _ _ (by simp) hm
    · rename_i os hos
      have hle := framePayload_length_le hos
      have hl : ({ newJob r h p with orders := os } : Job).lawful 0 := by
        refine ⟨hle, rfl, rfl, ?_⟩
        show 0 + (2 + 4 * os.length) ≤ replyRoom
        simp only [replyRoom]
        omega
      rw [advance_shape]
      refine (hm.reengine rfl (e := (u.advance { newJob r h p with orders := os }).engine) ?_ ?_ ?_).andThen
        (.bookkeeping u.timebase _ u.freeDraws u.pending)
      · exact advance_orderFrame ..
      · exact advance_reply ..
      · exact advance_engineLaw hl (Nat.zero_le _) u

theorem moves_replayLost {s t : State} {j : Job} (hj : j.results = [])
    (ht : Moves s (t.withEngine (taking j .build))) : Moves s (t.replayLost j) := by
  unfold State.replayLost
  split
  · rename_i r u hu
    have hb : (t.withEngine (taking j .build)).build (replyHeader j t.station) (replyPayload .replayLost j.results) =
        some (r, u.withEngine (taking j .build)) := by rw [build_withEngine, hj, hu]; rfl
    have h1 : Moves s (u.withEngine (taking j (.memory (some r)))) := ht.trans
      (Move.buildReply j .replayLost _ r (u.withEngine (taking j .build)) rfl hb).moves
    have h2 := h1.trans (moves_placeReply (j := j) (r := r) (refs_of_reply rfl))
    rw [placeReply_withEngine] at h2
    have h3 := h2.andThen (.releaseStep j _ (.memory (some r)) rfl)
    simp only [ReplyStep.reply?, State.releaseStep, release_withEngine, finish_withEngine] at h3
    exact h3
  · have h2 (q : Request) := (ht.report_beside q).andThen (.releaseStep j _ .build rfl)
    simp only [ReplyStep.reply?, State.releaseStep, finish_withEngine] at h2
    exact h2 _

theorem moves_replay {s t : State} {j : Job} (hj : j.results = []) (ht : Moves s (t.withEngine (taking j .build)))
    (hr : t.isRetransmission j = true) : Moves s (t.replay j) := by
  unfold State.replay
  unfold State.isRetransmission at hr
  split at hr
  · rename_i k hk
    rw [hk]
    dsimp only
    have h1 : Moves s (State.withEngine (taking j .build) { t with claim := some { k with port := j.copy.port } }) :=
      ht.andThen (.claim k { k with port := j.copy.port } hk rfl)
    split
    · rename_i r hm
      have h2 := h1.trans (moves_placeReply (j := j) (r := r) (refs_of_replyMemory (k := { k with port := j.copy.port })
        rfl hm))
      rw [placeReply_withEngine] at h2
      have h3 := h2.andThen (.releaseStep j _ .build rfl)
      simp only [ReplyStep.reply?, State.releaseStep, finish_withEngine] at h3
      exact h3
    · exact moves_replayLost hj h1
  · cases hr

theorem moves_engineTake (s : State) : Moves s s.engineTake := by
  unfold State.engineTake
  split
  · rename_i r rest he hq
    split
    · rename_i h hh
      split
      · rename_i p hp
        have ht : Moves s ((s.setDeque intake { s.deque intake with entries := rest }).withEngine
            (taking (newJob r h.header p) .build)) :=
          (Move.takeOrder r rest _ .replayLost .build he hq rfl rfl (by simp) rfl).moves
        dsimp only
        split
        · rename_i hr
          exact moves_replay rfl ht hr
        · exact moves_parse ht h
      · exact .refl s
    · exact .refl s
  · exact .refl s

end Sys2Proof.Machine
end

section
namespace Sys2Proof.Machine

open Sys2Proof

/-! ## The lengths of result data (R142) -/

@[simp] theorem be16_length (x : BitVec 16) : (be16 x).length = 2 := rfl

@[simp] theorem be32_length (x : BitVec 32) : (be32 x).length = 4 := rfl

@[simp] theorem addressBytes_length (a : Address) : (addressBytes a).length = 2 := rfl

@[simp] theorem indexBytes_length (i : EntryNo) : (indexBytes i).length = 2 := rfl

@[simp] theorem versionBytes_length (v : Version) : (versionBytes v).length = 2 := rfl

@[simp] theorem claimBytes_length (s : State) : s.claimBytes.length = 3 := by
  unfold State.claimBytes
  split <;> simp

@[simp] theorem entryUsed_bytes_length (x : EntryUsed) : x.bytes.length = 2 := by
  cases x <;> rfl

@[simp] theorem disposition_bytes_length (d : Disposition) : d.bytes.length = 7 := by
  simp [Disposition.bytes, targetBytes]

@[simp] theorem key_bytes_length (k : Key) : k.bytes.length = 4 := rfl

@[simp] theorem stored_bytes_length (x : Stored) : x.bytes.length = 11 := by
  cases x <;> simp [Stored.bytes]

theorem entryBytes_length_le (s : State) (i : EntryNo) : (s.entryBytes i).length ≤ 16 := by
  unfold State.entryBytes
  cases (s.entry i).body <;> simp [EntryBody.stored?]

@[simp] theorem record_bytes_length (r : ExceptionRecord) : r.bytes.length = 20 := by
  unfold ExceptionRecord.bytes summaryBytes
  cases r.summary <;> simp

@[simp] theorem records_bytes_length (rs : List ExceptionRecord) :
    (rs.flatMap ExceptionRecord.bytes).length = 20 * rs.length := by
  induction rs with
  | nil => rfl
  | cons r rs ih => simp [List.flatMap_cons, ih]; omega

/-- At most 16 records are occupied (R170). -/
theorem ExceptionLaw.records_length_le {s : State} (h : ExceptionLaw s) : s.exc.records.length ≤ 16 := by
  have h1 : s.exc.creation.length ≤ 16 := by simpa using h.1.length_le_card
  exact (List.length_filterMap_le ..).trans h1

theorem locationBytes_length (l : Option Location) : (locationBytes l).length = 3 := by
  rcases l with _ | (_ | _ | _) <;> rfl

/-! ## Each order's body -/

theorem bodyOutcome_badLength (greatest : Nat) (j : Job) (s : State) : BodyOutcome greatest s (badLength j s) :=
  bodyOutcome_refuse ..

/-- An answer that changes nothing. -/
theorem bodyOutcome_read {greatest : Nat} {s : State} {data : List Byte} (hd : data.length ≤ greatest) :
    BodyOutcome greatest s (accept data s) :=
  bodyOutcome_accept (.refl s) rfl hd

theorem identifyBody_outcome (ops : List Byte) (j : Job) (s : State) : BodyOutcome 12 s (identifyBody ops j s) := by
  unfold identifyBody
  split
  · exact bodyOutcome_read (by simp)
  · exact bodyOutcome_badLength ..

theorem moves_renewClaim {k : Claim} {j : Job} {lease : Byte} {s : State} (hk : s.claim = some k) :
    Moves s (s.renewClaim k j lease) :=
  (Move.claim k { k with expiry := leaseEnd s.timebase lease, port := j.copy.port } hk rfl).moves

theorem claimBody_outcome (ops : List Byte) (j : Job) (s : State) : BodyOutcome 3 s (claimBody ops j s) := by
  unfold claimBody
  split
  · refine bodyOutcome_notBroadcast ?_
    split
    · exact bodyOutcome_refuse ..
    · split
      · rename_i hc
        exact bodyOutcome_accept (Move.takeClaim j _ hc).moves (by simp [State.takeClaim]) (by simp)
      · rename_i k hk
        split
        · exact bodyOutcome_accept (moves_renewClaim hk) rfl (by simp)
        · exact .result _ _ s (.refl s) rfl (by simp)
  · exact bodyOutcome_badLength ..

theorem renewBody_outcome (ops : List Byte) (j : Job) (s : State) : BodyOutcome 1 s (renewBody ops j s) := by
  unfold renewBody
  split
  · refine bodyOutcome_holderOnly ?_
    split
    · exact bodyOutcome_refuse ..
    · split
      · rename_i k hk
        exact bodyOutcome_accept (moves_renewClaim hk) rfl (by simp)
      · exact bodyOutcome_refuse ..
  · exact bodyOutcome_badLength ..

theorem releaseBody_outcome (ops : List Byte) (j : Job) (s : State) : BodyOutcome 0 s (releaseBody ops j s) := by
  unfold releaseBody
  split
  · refine bodyOutcome_holderOnly ?_
    split
    · rename_i k hk
      exact bodyOutcome_accept (Move.clearClaim k hk).moves (by simp) (by simp)
    · exact bodyOutcome_refuse ..
  · exact bodyOutcome_badLength ..

theorem stationOperand_ne {hi lo : Byte} {a : Address} (h : stationOperand hi lo = some a) : a ≠ broadcast := by
  unfold stationOperand at h
  split at h
  · split at h
    · cases h
    · cases h; assumption
  · cases h

theorem setStationBody_outcome (ops : List Byte) (j : Job) (s : State) : BodyOutcome 2 s (setStationBody ops j s) := by
  unfold setStationBody
  split
  · refine bodyOutcome_holderOnly ?_
    split
    · rename_i a ha
      exact bodyOutcome_accept (Move.station a (stationOperand_ne ha)).moves rfl (by simp)
    · exact bodyOutcome_refuse ..
  · exact bodyOutcome_badLength ..

theorem moves_checkEntry (i : EntryNo) (p : Port) (s : State) : Moves s (s.checkEntry i p) := by
  unfold State.checkEntry
  split
  · exact moves_markSuspect ..
  · exact .refl s

theorem checkEntry_engine (i : EntryNo) (p : Port) (s : State) : (s.checkEntry i p).engine = s.engine := by
  unfold State.checkEntry
  split <;> simp

theorem readEntryBody_outcome (ops : List Byte) (j : Job) (s : State) : BodyOutcome 16 s (readEntryBody ops j s) := by
  unfold readEntryBody
  split
  · dsimp only
    split
    · exact bodyOutcome_accept (moves_checkEntry ..) (checkEntry_engine ..) (entryBytes_length_le ..)
    · exact bodyOutcome_refuse ..
  · exact bodyOutcome_badLength ..

theorem writeEntryBody_outcome (ops : List Byte) (j : Job) (s : State) :
    BodyOutcome 2 s (writeEntryBody ops j s) := by
  unfold writeEntryBody
  split
  · refine bodyOutcome_holderOnly ?_
    split
    · exact bodyOutcome_refuse ..
    · exact bodyOutcome_refuse ..
    · rename_i i c _ _
      simp only [State.writeEntry]
      split
      · exact .result _ _ s (.refl s) rfl (by simp)
      · split
        · exact .result _ _ s (.refl s) rfl (by simp)
        · rename_i hc
          refine bodyOutcome_accept (Move.setEntry i _ ?_).moves rfl (by simp)
          rintro k hk
          cases hk
          exact hc
  · exact bodyOutcome_badLength ..

theorem freeEntryBody_outcome (ops : List Byte) (j : Job) (s : State) : BodyOutcome 2 s (freeEntryBody ops j s) := by
  unfold freeEntryBody
  split
  · refine bodyOutcome_holderOnly ?_
    split
    · exact bodyOutcome_refuse ..
    · simp only [State.freeEntry]
      split
      · exact .result _ _ s (.refl s) rfl (by simp)
      · exact bodyOutcome_accept (Move.setEntry _ ⟨_, .free⟩ (fun k hk => nomatch hk)).moves rfl (by simp)
  · exact bodyOutcome_badLength ..

theorem findEntryBody_outcome (ops : List Byte) (j : Job) (s : State) : BodyOutcome 2 s (findEntryBody ops j s) := by
  unfold findEntryBody
  split
  · dsimp only
    split
    · exact bodyOutcome_refuse ..
    · exact bodyOutcome_accept (moves_lookup ..) (by simp) (by simp)
    · exact bodyOutcome_refuse ..
  · exact bodyOutcome_badLength ..

theorem readDefaultBody_outcome (ops : List Byte) (j : Job) (s : State) :
    BodyOutcome 10 s (readDefaultBody ops j s) := by
  unfold readDefaultBody
  split
  · split
    · exact bodyOutcome_read (by simp)
    · exact bodyOutcome_refuse ..
  · exact bodyOutcome_badLength ..

theorem writeDefaultBody_outcome (ops : List Byte) (j : Job) (s : State) :
    BodyOutcome 2 s (writeDefaultBody ops j s) := by
  unfold writeDefaultBody
  split
  · refine bodyOutcome_holderOnly ?_
    split
    · exact bodyOutcome_refuse ..
    · exact bodyOutcome_refuse ..
    · simp only [State.writeDefault]
      split
      · exact .result _ _ s (.refl s) rfl (by simp)
      · exact bodyOutcome_accept (Move.defaults _).moves rfl (by simp)
  · exact bodyOutcome_badLength ..

theorem readDequeBody_outcome (ops : List Byte) (j : Job) (s : State) : BodyOutcome 14 s (readDequeBody ops j s) := by
  unfold readDequeBody
  split
  · split
    · exact bodyOutcome_read (by simp [State.dequeBytes])
    · exact bodyOutcome_refuse ..
  · exact bodyOutcome_badLength ..

theorem isFixed_eq_false {d : DequeNo} (h : ¬ isFixed d = true) : d.val < 28 := by
  simp only [isFixed, decide_eq_true_eq] at h
  omega

theorem setDequeBody_outcome (ops : List Byte) (j : Job) (s : State) : BodyOutcome 0 s (setDequeBody ops j s) := by
  unfold setDequeBody
  split
  · refine bodyOutcome_holderOnly ?_
    dsimp only
    split
    · exact bodyOutcome_refuse ..
    · exact bodyOutcome_refuse ..
    · split
      · exact bodyOutcome_refuse ..
      · rename_i hf
        split
        · rename_i hs
          exact bodyOutcome_accept (Move.dequeConfig _ _ (isFixed_eq_false hf) hs).moves rfl (by simp)
        · exact bodyOutcome_refuse ..
  · exact bodyOutcome_badLength ..

theorem stateOrder_outcome {allowed : Deque → Bool} {change : DequeNo → State → State} (ops : List Byte) (j : Job)
    (s : State) (hc : ∀ d, d.val < 28 → Moves s (change d s) ∧ (change d s).engine = s.engine) :
    BodyOutcome 0 s (stateOrder ops allowed change j s) := by
  unfold stateOrder
  split
  · refine bodyOutcome_holderOnly ?_
    split
    · exact bodyOutcome_refuse ..
    · split
      · exact bodyOutcome_refuse ..
      · rename_i hf
        split
        · obtain ⟨hm, he⟩ := hc _ (isFixed_eq_false hf)
          exact bodyOutcome_accept hm he (by simp)
        · exact bodyOutcome_refuse ..
  · exact bodyOutcome_badLength ..

theorem openDequeBody_outcome (ops : List Byte) (j : Job) (s : State) : BodyOutcome 0 s (openDequeBody ops j s) :=
  stateOrder_outcome ops j s fun d hd =>
    ⟨(Move.dequeState d .active hd (fun h => nomatch h)).moves.trans (moves_offer ..), by simp [setDequeState_engine]⟩

theorem pauseDequeBody_outcome (ops : List Byte) (j : Job) (s : State) : BodyOutcome 0 s (pauseDequeBody ops j s) :=
  stateOrder_outcome ops j s fun d hd => ⟨(Move.dequeState d .paused hd (fun h => nomatch h)).moves, rfl⟩

theorem resumeDequeBody_outcome (ops : List Byte) (j : Job) (s : State) : BodyOutcome 0 s (resumeDequeBody ops j s) :=
  stateOrder_outcome ops j s fun d hd =>
    ⟨(Move.dequeState d .active hd (fun h => nomatch h)).moves.trans (moves_offer ..), by simp [setDequeState_engine]⟩

theorem startDrain_outcome {d : DequeNo} (hd : d.val < 28) (target : DrainTarget) (s : State) :
    BodyOutcome 1 s (s.startDrain d target) := by
  unfold State.startDrain
  split
  · rename_i he
    have hm := (Move.dequeState d target.state hd (fun _ => he)).moves
    dsimp only
    split
    · exact bodyOutcome_accept hm rfl (by simp)
    · exact bodyOutcome_accept (hm.trans (moves_offer ..)) (by simp [setDequeState_engine]) (by simp)
  · exact .wait _ ((Move.dequeState d (.draining target 0) hd (fun h => nomatch h)).moves.trans (moves_raise ..)) rfl (Nat.le_refl 1)

theorem drainDequeBody_outcome (ops : List Byte) (j : Job) (s : State) :
    BodyOutcome 1 s (drainDequeBody ops j s) := by
  unfold drainDequeBody
  split
  · refine bodyOutcome_holderOnly ?_
    split
    · exact bodyOutcome_refuse ..
    · exact bodyOutcome_refuse ..
    · split
      · exact bodyOutcome_refuse ..
      · rename_i hf
        split
        · exact startDrain_outcome (isFixed_eq_false hf) ..
        · exact bodyOutcome_refuse ..
  · exact bodyOutcome_badLength ..

theorem readPortBody_outcome (ops : List Byte) (j : Job) (s : State) : BodyOutcome 5 s (readPortBody ops j s) := by
  unfold readPortBody
  split
  · split
    · exact bodyOutcome_read (by simp [State.portBytes])
    · exact bodyOutcome_refuse ..
  · exact bodyOutcome_badLength ..

theorem portOrder_outcome {effect : Port → State → State} (ops : List Byte) (j : Job) (s : State)
    (he : ∀ p, Moves s (effect p s) ∧ (effect p s).engine = s.engine) :
    BodyOutcome 0 s (portOrder ops effect j s) := by
  unfold portOrder
  split
  · refine bodyOutcome_holderOnly ?_
    split
    · exact bodyOutcome_accept (he _).1 (he _).2 (by simp)
    · exact bodyOutcome_refuse ..
  · exact bodyOutcome_badLength ..

theorem holdPortBody_outcome (ops : List Byte) (j : Job) (s : State) : BodyOutcome 0 s (holdPortBody ops j s) :=
  portOrder_outcome ops j s fun p => ⟨moves_setHeld p true s, rfl⟩

theorem unholdPortBody_outcome (ops : List Byte) (j : Job) (s : State) : BodyOutcome 0 s (unholdPortBody ops j s) :=
  portOrder_outcome ops j s fun p => ⟨(moves_setHeld p false s).trans (moves_takeAttempt ..), by
    rw [takeAttempt_engine]; rfl⟩

theorem moves_retrain (p : Port) (s : State) : Moves s (s.retrain p) := by
  have quiet : ∀ t : State, Moves t (t.updPort p fun y => { y with quietUntil := some (s.timebase + quietPeriod) }) :=
    fun t => (Move.portAside p { t.port p with quietUntil := some (s.timebase + quietPeriod) } rfl rfl rfl rfl rfl).moves
  unfold State.retrain
  dsimp only
  split
  · exact (moves_leaveUp p s).trans (quiet _)
  · rename_i h
    exact ((Move.link p .down trivial (by simp [h, LinkState.isUp])).moves).trans (quiet _)
  · exact quiet s

theorem retrain_engine (p : Port) (s : State) : (s.retrain p).engine = s.engine := by
  unfold State.retrain
  dsimp only
  split
  · simp
  · rfl
  · rfl

theorem retrainPortBody_outcome (ops : List Byte) (j : Job) (s : State) : BodyOutcome 0 s (retrainPortBody ops j s) :=
  portOrder_outcome ops j s fun p => ⟨moves_retrain p s, retrain_engine p s⟩

theorem readExceptionsBody_outcome (ops : List Byte) (j : Job) (s : State) :
    BodyOutcome 321 s (readExceptionsBody ops j s) := by
  unfold readExceptionsBody
  split
  · refine .result _ _ s (.refl s) rfl fun h => ?_
    have := h.records_length_le
    simp only [ExcUnit.bytes, List.length_cons, records_bytes_length]
    omega
  · exact bodyOutcome_badLength ..

theorem ackExceptionsBody_outcome (ops : List Byte) (j : Job) (s : State) :
    BodyOutcome 1 s (ackExceptionsBody ops j s) := by
  unfold ackExceptionsBody
  split
  · exact bodyOutcome_holderOnly (bodyOutcome_accept (Move.acknowledge _).moves rfl (by simp))
  · exact bodyOutcome_badLength ..

theorem setReportingBody_outcome (ops : List Byte) (j : Job) (s : State) :
    BodyOutcome 0 s (setReportingBody ops j s) := by
  unfold setReportingBody
  split
  · refine bodyOutcome_holderOnly ?_
    split
    · exact bodyOutcome_accept (Move.setReporting ..).moves rfl (by simp)
    · exact bodyOutcome_refuse ..
  · exact bodyOutcome_badLength ..

theorem readChecksBody_outcome (ops : List Byte) (j : Job) (s : State) : BodyOutcome 5 s (readChecksBody ops j s) := by
  unfold readChecksBody
  split
  · exact bodyOutcome_read (by simp [CheckMonitor.bytes, locationBytes_length])
  · exact bodyOutcome_badLength ..

theorem clearChecksBody_outcome (ops : List Byte) (j : Job) (s : State) :
    BodyOutcome 0 s (clearChecksBody ops j s) := by
  unfold clearChecksBody
  split
  · exact bodyOutcome_holderOnly (bodyOutcome_accept Move.clearChecks.moves rfl (by simp))
  · exact bodyOutcome_badLength ..

theorem readPoolBody_outcome (ops : List Byte) (j : Job) (s : State) : BodyOutcome 6 s (readPoolBody ops j s) := by
  unfold readPoolBody
  split
  · exact bodyOutcome_read (by simp [State.poolBytes])
  · exact bodyOutcome_badLength ..

theorem resetTrafficBody_outcome (ops : List Byte) (j : Job) (s : State) :
    BodyOutcome 0 s (resetTrafficBody ops j s) := by
  unfold resetTrafficBody
  split
  · exact bodyOutcome_holderOnly .resetTraffic
  · exact bodyOutcome_badLength ..

theorem resetFullBody_outcome (ops : List Byte) (j : Job) (s : State) : BodyOutcome 0 s (resetFullBody ops j s) := by
  unfold resetFullBody
  split
  · exact bodyOutcome_holderOnly .resetFull
  · exact bodyOutcome_badLength ..

/-! ## Every step -/

theorem moves_signalDetected (p : Port) (s : State) :
    ∃ t, execSignalDetected p s = .next t ∧ Moves s t := by
  refine ⟨_, rfl, ?_⟩
  have h : Moves s (s.updPort p fun y => { y with signal := true }) :=
    (Move.portAside p { s.port p with signal := true } rfl rfl rfl rfl rfl).moves
  split
  · rename_i hl _
    exact h.andThen (.link p (.sync 0) (Nat.zero_le _) (by simp [hl, LinkState.isUp]))
  · exact h

theorem moves_lossOfSignal (p : Port) (s : State) : ∃ t, execLossOfSignal p s = .next t ∧ Moves s t := by
  refine ⟨_, rfl, ?_⟩
  have h : Moves s (s.updPort p fun y => { y with signal := false }) :=
    (Move.portAside p { s.port p with signal := false } rfl rfl rfl rfl rfl).moves
  split
  · exact h
  · rename_i hl
    exact h.andThen (.link p .down trivial (by simp [hl, LinkState.isUp]))
  · exact h.trans (moves_leaveUp ..)

theorem moves_endOfQuietPeriod (p : Port) (s : State) : ∃ t, execEndOfQuietPeriod p s = .next t ∧ Moves s t := by
  unfold execEndOfQuietPeriod
  split
  · refine ⟨_, rfl, ?_⟩
    have h : Moves s (s.updPort p fun y => { y with quietUntil := none }) :=
      (Move.portAside p { s.port p with quietUntil := none } rfl rfl rfl rfl rfl).moves
    split
    · rename_i hl
      split
      · exact h.andThen (.link p (.sync 0) (Nat.zero_le _) (by simp [hl, LinkState.isUp]))
      · exact h
    · exact h
  · exact ⟨s, rfl, .refl s⟩

theorem moves_idleCodeGroup (p : Port) (s : State) : ∃ t, execIdleCodeGroup p s = .next t ∧ Moves s t := by
  refine ⟨_, rfl, ?_⟩
  split
  · exact .refl s
  · rename_i n hl
    split
    · exact moves_becomeUp ..
    · rename_i hn
      refine (Move.link p (.sync (n + 1)) ?_ (by simp [hl, LinkState.isUp])).moves
      simp only [alignmentRun] at hn
      simp only [LinkState.inRange]
      omega
  · exact (Move.link p (.up 0) (Nat.zero_le _) (by simp [LinkState.isUp])).moves

theorem reaches_invalidCodeGroup (p : Port) (s : State) : ∃ t, execInvalidCodeGroup p s = .next t ∧ Reaches s t := by
  refine ⟨_, rfl, ?_⟩
  split
  · exact (Moves.refl s).reaches
  · rename_i hl
    exact (Move.link p (.sync 0) (Nat.zero_le _) (by simp [hl, LinkState.isUp])).moves.reaches
  · rename_i n hl
    split
    · exact (moves_leaveUp ..).reaches
    · rename_i hn
      refine (reaches_reachReceiver ?_ _).after (Move.link p (.up (n + 1)) ?_ ?_).moves (setLink_sameReceptions ..)
      · simp [State.setLink, LinkState.isUp]
      · simp only [lossRun] at hn
        simp only [LinkState.inRange]
        omega
      · simp [LinkState.isUp]

theorem moves_transmissionComplete (p : Port) (s : State) :
    ∃ t, execTransmissionComplete p s = .next t ∧ Moves s t := by
  refine ⟨_, rfl, ?_⟩
  cases ht : (s.port p).transmitter with
  | idle => exact .refl s
  | sending r d u =>
    have hm := moves_readCells ht u.length
    dsimp only
    split
    · rename_i t h
      rw [h] at hm
      exact hm
    · rename_i t h
      rw [h] at hm
      refine (hm.trans (moves_setLineOut ..)).trans (moves_endTransmission (d := d) (u := u.drop u.length) ?_)
      simpa [State.setLineOut] using readCells_transmitter h

theorem moves_readUpTo (p : Port) (c : CellNo) (x : CellFault) (s : State) : Moves s (s.readUpTo p c x) := by
  unfold State.readUpTo
  cases ht : (s.port p).transmitter with
  | idle => exact .refl s
  | sending r d u =>
    dsimp only
    split
    · refine (moves_strikeOne ..).trans (moves_readCells (d := d) ?_ _)
      simpa [State.port] using ht
    · exact .refl s

theorem moves_leaseExpiry (s : State) : ∃ t, execLeaseExpiry s = .next t ∧ Moves s t := by
  refine ⟨_, rfl, ?_⟩
  split
  · rename_i k hk
    split
    · exact (Move.clearClaim k hk).moves.trans (moves_report ..)
    · exact .refl s
  · exact .refl s

theorem strike_sameReceptions (us : List Upset) (s : State) : SameReceptions s (s.strike us) :=
  ⟨strike_records us s, fun p => by simp [State.port]⟩

/-- Every command answers a next state, and reaches it by moves, or by a hand-over between moves. -/
theorem exec_reaches (c : Instr) (s : State) : ∃ t, exec c s = .next t ∧ Reaches s t := by
  have next : ∀ {t}, Moves s t → ∃ u, Host.Outcome.next (φ := Fault) (ρ := Refusal) t = .next u ∧ Reaches s u :=
    fun h => ⟨_, rfl, h.reaches⟩
  have some_ : ∀ {x : Host.Outcome State Fault Refusal}, (∃ t, x = .next t ∧ Moves s t) →
      ∃ t, x = .next t ∧ Reaches s t := fun ⟨t, h, hm⟩ => ⟨t, h, hm.reaches⟩
  have struck : ∀ (us : List Upset) {t}, Moves (s.strike us) t →
      ∃ u, Host.Outcome.next (φ := Fault) (ρ := Refusal) t = .next u ∧ Reaches s u :=
    fun us _ h => ⟨_, rfl, ((moves_strike us s).trans h).reaches⟩
  cases c with
  | hardReset straps => exact next (Move.hardReset straps).moves
  | signalDetected p => exact some_ (moves_signalDetected p s)
  | lossOfSignal p => exact some_ (moves_lossOfSignal p s)
  | alignmentAchieved p =>
    refine next ?_
    split
    · split
      · exact moves_becomeUp ..
      · exact .refl s
    · exact .refl s
  | lossOfAlignment p =>
    refine next ?_
    split
    · split
      · exact moves_leaveUp ..
      · exact .refl s
    · exact .refl s
  | endOfQuietPeriod p => exact some_ (moves_endOfQuietPeriod p s)
  | startOfFrame p => exact ⟨_, rfl, reaches_lineGroup ..⟩
  | dataByte p b => exact ⟨_, rfl, reaches_lineGroup ..⟩
  | invalidCodeGroup p => exact reaches_invalidCodeGroup p s
  | endOfFrame p us =>
    exact ⟨_, rfl, (reaches_lineGroup p .finish _).after (moves_strike us s) (strike_sameReceptions us s)⟩
  | takeAttempt p => exact next ((moves_settle ..).trans (moves_takeAttempt ..))
  | transmissionComplete p => exact some_ (moves_transmissionComplete p s)
  | cellReadCorrected p c => exact next (moves_readUpTo ..)
  | poisonedEnd p c => exact next (moves_readUpTo ..)
  | drainRemoval d => exact next ((moves_settle ..).trans (moves_drainRemoval ..))
  | engineTake us => exact struck us ((moves_settle ..).trans (moves_engineTake _))
  | replyBuild =>
    refine next ((moves_settle .replyBuild s).trans ?_)
    split
    · exact moves_replyStep (by assumption)
    · exact .refl _
  | leaseExpiry => exact some_ (moves_leaseExpiry s)
  | retryTimerExpiry =>
    refine next ?_
    split
    · rename_i h
      exact (Move.retry _ (by rw [h]; rfl)).moves.trans (moves_raise ..)
    · exact .refl s
  | noticeDeliveryAttempt =>
    refine next ?_
    split
    · exact (moves_settle ..).trans (moves_deliveryAttempt _)
    · exact .refl s
  | noticePlacement =>
    refine next ((moves_settle .noticePlacement s).trans ?_)
    split
    · exact moves_placeNotice (by assumption)
    · exact .refl _
  | identify ops => exact next (moves_dealOrder (identifyBody_outcome ops) ..)
  | claim ops => exact next (moves_dealOrder (claimBody_outcome ops) ..)
  | renew ops => exact next (moves_dealOrder (renewBody_outcome ops) ..)
  | release ops => exact next (moves_dealOrder (releaseBody_outcome ops) ..)
  | setStation ops => exact next (moves_dealOrder (setStationBody_outcome ops) ..)
  | readEntry ops us => exact struck us (moves_dealOrder (readEntryBody_outcome ops) ..)
  | writeEntry ops us => exact struck us (moves_dealOrder (writeEntryBody_outcome ops) ..)
  | freeEntry ops => exact next (moves_dealOrder (freeEntryBody_outcome ops) ..)
  | findEntry ops us => exact struck us (moves_dealOrder (findEntryBody_outcome ops) ..)
  | readDefault ops => exact next (moves_dealOrder (readDefaultBody_outcome ops) ..)
  | writeDefault ops => exact next (moves_dealOrder (writeDefaultBody_outcome ops) ..)
  | readDeque ops => exact next (moves_dealOrder (readDequeBody_outcome ops) ..)
  | setDeque ops => exact next (moves_dealOrder (setDequeBody_outcome ops) ..)
  | openDeque ops => exact next (moves_dealOrder (openDequeBody_outcome ops) ..)
  | pauseDeque ops => exact next (moves_dealOrder (pauseDequeBody_outcome ops) ..)
  | resumeDeque ops => exact next (moves_dealOrder (resumeDequeBody_outcome ops) ..)
  | drainDeque ops => exact next (moves_dealOrder (drainDequeBody_outcome ops) ..)
  | readPort ops => exact next (moves_dealOrder (readPortBody_outcome ops) ..)
  | holdPort ops => exact next (moves_dealOrder (holdPortBody_outcome ops) ..)
  | unholdPort ops => exact next (moves_dealOrder (unholdPortBody_outcome ops) ..)
  | retrainPort ops => exact next (moves_dealOrder (retrainPortBody_outcome ops) ..)
  | readExceptions ops => exact next (moves_dealOrder (readExceptionsBody_outcome ops) ..)
  | ackExceptions ops => exact next (moves_dealOrder (ackExceptionsBody_outcome ops) ..)
  | setReporting ops => exact next (moves_dealOrder (setReportingBody_outcome ops) ..)
  | readChecks ops => exact next (moves_dealOrder (readChecksBody_outcome ops) ..)
  | clearChecks ops => exact next (moves_dealOrder (clearChecksBody_outcome ops) ..)
  | readPool ops => exact next (moves_dealOrder (readPoolBody_outcome ops) ..)
  | resetTraffic ops => exact next (moves_dealOrder (resetTrafficBody_outcome ops) ..)
  | resetFull ops => exact next (moves_dealOrder (resetFullBody_outcome ops) ..)
  | unknownOrder code ops =>
    refine next ?_
    split
    · exact moves_dealOrder (fun _ _ => bodyOutcome_refuse ..) _ _
    · exact .refl s
  | idleCodeGroup p => exact some_ (moves_idleCodeGroup p s)

theorem setPort_self (p : Port) (s : State) : s.setPort p (s.port p) = s := by
  cases p <;> rfl

/-- Taking a group leaves the line of its port as it is. -/
theorem takeGroup_line (p : Port) (g : LineGroup) (s : State) :
    ((s.takeGroup p g).port p).link = (s.port p).link ∧ ((s.takeGroup p g).port p).lineWaits = (s.port p).lineWaits := by
  have hs : s.withLine p (s.port p).link (s.port p).lineWaits = s := setPort_self p s
  have h : s.takeGroup p g = (s.takeGroup p g).withLine p (s.port p).link (s.port p).lineWaits := by
    rw [← takeGroup_withLine, hs]
  rw [h]
  simp [State.withLine]

theorem reaches_takeWaiting {p : Port} {s : State} {g : LineGroup} {rest : List LineGroup}
    (hw : (s.port p).lineWaits = g :: rest) (hg : g = .finish → (s.port p).admission = .idle) :
    Reaches s (s.takeWaiting p) := by
  obtain ⟨hl, hq⟩ := takeGroup_line p g s
  have hne : (s.port p).lineWaits ≠ [] := by simp [hw]
  have heq : s.takeWaiting p = (s.takeGroup p g).updPort p fun y => { y with lineWaits := rest } := by
    rw [takeWaiting_eq hw, ← hl]
    rfl
  rw [heq]
  exact (reaches_takeGroup (.inr hne) g hg).andThen (Move.lineWaits p rest fun _ => .inr (by rw [hq]; exact hne)).moves

theorem drawn_sameReceptions (s : State) : SameReceptions s s.drawn := ⟨rfl, fun _ => rfl⟩

/-- What the block does by itself (R191). -/
theorem idle_reaches (s : State) : ∃ t, s.idle = .next t ∧ Reaches s t := by
  by_cases hd : ∃ p, EndDue s p
  · obtain ⟨p, hp⟩ := hd
    obtain ⟨q, ⟨ha, hq⟩, h⟩ := idle_of_endDue hp
    obtain ⟨rest, hw⟩ : ∃ rest, (s.port q).lineWaits = .finish :: rest := List.head?_eq_some_iff.mp hq
    have drawn : Reaches s (s.drawn.takeWaiting q) :=
      (reaches_takeWaiting (s := s.drawn) hw fun _ => ha).after (moves_drawn s) (drawn_sameReceptions s)
    rcases h with h | h
    · exact ⟨_, h, reaches_takeWaiting hw fun _ => ha⟩
    · exact ⟨_, h, drawn⟩
  · rcases idle_cases (fun p hp => hd ⟨p, hp⟩) with h | h | ⟨c, -, h⟩ | ⟨p, a, -, h⟩ | ⟨p, g, rest, hw, hg, h⟩
    · exact ⟨_, h, (moves_tick s).reaches⟩
    · exact ⟨_, h, ((moves_drawn s).trans (moves_tick _)).reaches⟩
    · obtain ⟨t, ht, hr⟩ := exec_reaches c s.drawn
      exact ⟨t, h.trans ht, hr.after (moves_drawn s) (drawn_sameReceptions s)⟩
    · exact ⟨_, h, ((moves_drawn s).trans (moves_admitStep ..)).reaches⟩
    · exact ⟨_, h, (reaches_takeWaiting (s := s.drawn) hw fun he => absurd he hg).after (moves_drawn s)
        (drawn_sameReceptions s)⟩

/-- Every step is a chain of moves, with at most one hand-over in it. -/
theorem step_reaches {s t : State} (h : step s = .next t) : Reaches s t := by
  unfold step at h
  split at h
  · rename_i c rest _
    obtain ⟨u, hu, hr⟩ := exec_reaches c { s with pending := rest }
    obtain rfl : u = t := Host.Outcome.next.inj (hu.symm.trans h)
    exact hr.after (Move.bookkeeping s.timebase s.follow s.freeDraws rest).moves ⟨rfl, fun _ => rfl⟩
  · obtain ⟨u, hu, hr⟩ := idle_reaches s
    obtain rfl : u = t := Host.Outcome.next.inj (hu.symm.trans h)
    exact hr

end Sys2Proof.Machine
end

section
/-! SUPPORT. The laws at reset, and what the order resets come to: the laws of memory, station and table (tier 3). -/

namespace Sys2Proof.Machine

open Sys2Proof

/-! ## Hard reset -/

/-- The machine after HARD_RESET, with what the reset does not set. -/
def afterHardReset (straps : BitVec 12) (a : Address) (n : Nat) (q : List Instr) : State :=
  { State.reset with straps := straps, station := a, freeDraws := n, pending := q }

section
variable (straps : BitVec 12) (a : Address) (n : Nat) (q : List Instr)

@[simp] theorem afterHardReset_record (r : RecordNo) : (afterHardReset straps a n q).record r = .free := by
  simp [State.record, afterHardReset, State.reset]

@[simp] theorem afterHardReset_port (p : Port) : (afterHardReset straps a n q).port p = resetPort := by
  cases p <;> rfl

@[simp] theorem afterHardReset_deque (d : DequeNo) : (afterHardReset straps a n q).deque d = resetDeque d := by
  simp [State.deque, afterHardReset, State.reset, resetDeques]

@[simp] theorem afterHardReset_entry (i : EntryNo) : (afterHardReset straps a n q).entry i = ⟨0, .free⟩ := by
  simp [State.entry, afterHardReset, State.reset, resetEntries]

end

/-! ## The order resets (R49, R67, R84, R100, R120) -/

/-- What an order reset leaves of a receiver (R120). -/
def Receiver.afterReset : Receiver → Receiver
  | .receiving _ => .discarding
  | x => x

/-- What an order reset leaves of a port; `o` is what its line shows last. -/
def PortState.afterReset (y : PortState) (o : Option LineFrame) : PortState :=
  { y with transmitter := .idle, receiver := y.receiver.afterReset, admission := .idle, lineOut := o }

theorem resetTransmitter_shape (p : Port) (s : State) :
    ∃ o n, s.resetTransmitter p = { s.setPort p { s.port p with transmitter := .idle, lineOut := o } with
      freeDraws := n } := by
  unfold State.resetTransmitter
  split
  · rename_i h
    refine ⟨(s.port p).lineOut, s.freeDraws, ?_⟩
    have : s.port p = { s.port p with transmitter := .idle, lineOut := (s.port p).lineOut } := by rw [← h]
    rw [← this, setPort_self]
  · simp only [State.setLineOut, State.drawn, State.setTransmitter, State.updPort, State.setPort, State.port,
      PerPort.get_set_same, PerPort.set_set]
    exact ⟨_, _, rfl⟩

theorem resetReceiver_eq (p : Port) (s : State) :
    s.resetReceiver p = s.setPort p { s.port p with receiver := (s.port p).receiver.afterReset } := by
  unfold State.resetReceiver
  split
  · rename_i h
    rw [h]
    rfl
  · rename_i h
    have : (s.port p).receiver.afterReset = (s.port p).receiver := by
      unfold Receiver.afterReset
      split
      · rename_i x hx
        exact absurd hx (h x)
      · rfl
    rw [this]
    exact (setPort_self p s).symm

theorem resetPortTraffic_shape (p : Port) (s : State) :
    ∃ o n, s.resetPortTraffic p = { s.setPort p ((s.port p).afterReset o) with freeDraws := n } := by
  obtain ⟨o, n, h⟩ := resetTransmitter_shape p s
  refine ⟨o, n, ?_⟩
  simp only [State.resetPortTraffic, h, resetReceiver_eq, State.setAdmission, State.updPort, State.setPort, State.port,
    PerPort.get_set_same, PerPort.set_set]
  rfl

/-- What the two order resets share, field by field. -/
theorem resetFrames_shape (s : State) :
    ∃ x n, s.resetFrames = { s with
        ports := x, freeDraws := n, freeCells := allCells, freeRecords := allRecords,
        records := Vector.replicate 1024 .free, deques := s.deques.map (fun q => { q with entries := [] }),
        follow := s.follow.filter (fun c => !endedByReset c) } ∧
      ∀ p, ∃ o, x.get p = (s.port p).afterReset o := by
  obtain ⟨oe, n1, h1⟩ := resetPortTraffic_shape .E s
  obtain ⟨ow, n2, h2⟩ := resetPortTraffic_shape .W (s.resetPortTraffic .E)
  obtain ⟨ob, n3, h3⟩ := resetPortTraffic_shape .B ((s.resetPortTraffic .E).resetPortTraffic .W)
  refine ⟨⟨(s.port .E).afterReset oe, (s.port .W).afterReset ow, (s.port .B).afterReset ob⟩, n3, ?_, ?_⟩
  · rw [State.resetFrames, h3, h2, h1]
    simp only [State.resetPool, State.emptyDeques, State.dropEnded, State.setPort, State.port, PerPort.set,
      PerPort.get]
  · intro p
    cases p
    exacts [⟨oe, rfl⟩, ⟨ow, rfl⟩, ⟨ob, rfl⟩]

/-- What stands in common to the states that the two order resets leave. -/
structure FramesReset (s t : State) : Prop where
  freeCells : t.freeCells = allCells
  freeRecords : t.freeRecords = allRecords
  record : ∀ r, t.record r = .free
  port : ∀ p, ∃ (o : Option LineFrame) (m : Bool × Vector GeneralNo 8), t.port p = { (s.port p).afterReset o with held := m.1, markers := m.2 }
  entries : ∀ d, (t.deque d).entries = []
  building : t.exc.building = none
  replyMemory : t.claim.bind (·.replyMemory) = none
  engine : t.engine = s.engine
  mem : t.mem = s.mem
  timebase : t.timebase = s.timebase
  straps : t.straps = s.straps

theorem resetTraffic_framesReset (s : State) : FramesReset s s.resetTraffic := by
  obtain ⟨x, n, h, hx⟩ := resetFrames_shape s
  rw [State.resetTraffic, h]
  exact {
    freeCells := by simp
    freeRecords := by simp
    record := fun r => by simp [State.record]
    port := fun p => by
      obtain ⟨o, ho⟩ := hx p
      exact ⟨o, ((s.port p).held, (s.port p).markers), ho⟩
    entries := fun d => by simp [State.deque]
    building := by simp [State.syncTimer]
    replyMemory := by cases hc : s.claim <;> simp
    engine := by simp
    mem := by simp
    timebase := by simp
    straps := by simp }

theorem resetFull_shape (s : State) :
    ∃ x n, s.resetFull = { s with
        ports := x, freeDraws := n, freeCells := allCells, freeRecords := allRecords,
        records := Vector.replicate 1024 .free, entries := resetEntries, defaults := resetDefaults,
        deques := resetDeques, claim := none, exc := resetExc, check := resetCheck,
        follow := s.follow.filter (fun c => !endedByReset c) } ∧
      ∀ p, ∃ o, x.get p = { (s.port p).afterReset o with held := false, markers := Vector.replicate 8 27 } := by
  obtain ⟨x, n, h, hx⟩ := resetFrames_shape s
  refine ⟨x.map fun y => { y with held := false, markers := Vector.replicate 8 27 }, n, ?_, ?_⟩
  · simp only [State.resetFull, h, State.resetPortFull, State.updPort, State.setPort, State.port, PerPort.set, PerPort.get,
      PerPort.map]
  · intro p
    obtain ⟨o, ho⟩ := hx p
    refine ⟨o, ?_⟩
    rw [← ho]
    cases p <;> rfl

theorem resetFull_framesReset (s : State) : FramesReset s s.resetFull := by
  obtain ⟨x, n, h, hx⟩ := resetFull_shape s
  rw [h]
  exact {
    freeCells := by simp only
    freeRecords := by simp only
    record := fun r => by simp [State.record]
    port := fun p => by
      obtain ⟨o, ho⟩ := hx p
      exact ⟨o, (false, Vector.replicate 8 27), ho⟩
    entries := fun d => by simp [State.deque, resetDeques, resetDeque]
    building := by simp only [resetExc]
    replyMemory := by simp
    engine := by simp only
    mem := by simp only
    timebase := by simp only
    straps := by simp only }

/-! ## Operations that are one update -/

@[simp] theorem setReporting_eq (m : ClassMask) (l : Fin 4) (n : Bool) (s : State) :
    s.setReporting m l n =
      { s with exc := { s.exc with mask := m, notices := n }, check := { s.check with level := l } } := rfl

@[simp] theorem acknowledge_eq (a : Byte) (s : State) :
    s.acknowledge a = State.syncTimer { s with exc := s.exc.retain (fun r => !atOrBefore a r.seq) } := rfl

@[simp] theorem clearChecks_eq (s : State) :
    s.clearChecks = { s with check := ⟨false, false, false, none, s.check.level⟩ } := rfl

@[simp] theorem takeClaim_eq (j : Job) (lease : Byte) (s : State) :
    s.takeClaim j lease =
      ((State.report { code := .claimTaken, port := some j.copy.port, summary := some j.summary } { s with
        claim := some ⟨j.copy.src, leaseEnd s.timebase lease, j.copy.port, none, none⟩ }).syncTimer).raise
          .noticeDeliveryAttempt := rfl

/-! ## Builds and cells -/

/-- What a granted build comes to (R57). -/
theorem build_granted {h : Header} {payload : List Byte} {r : RecordNo} {s t : State}
    (ht : s.build h payload = some (r, t)) :
    ∃ rest, s.freeRecords = r :: rest ∧ cellsFor (8 + payload.length) ≤ s.freeCells.length ∧
      t = { s.setRecord r
          (.held ⟨s.freeCells.take (cellsFor (8 + payload.length)), 8 + payload.length, .internal, h, s.timebase, 1⟩) with
        freeRecords := rest
        freeCells := s.freeCells.drop (cellsFor (8 + payload.length))
        mem := writeStored (s.freeCells.take (cellsFor (8 + payload.length))) 0 (h.encode payload.length ++ payload) s.mem
        ecc := freshCodes (s.freeCells.take (cellsFor (8 + payload.length))) s.ecc } := by
  unfold State.build at ht
  split at ht
  · cases ht
  · rename_i r' rest hr
    dsimp only at ht
    split at ht
    · rename_i hc
      cases ht
      exact ⟨rest, hr, hc, rfl⟩
    · cases ht

/-- What a granted cell request comes to (R56). -/
theorem takeCell_granted {r : RecordNo} {s t : State} (ht : s.takeCell r = some t) :
    ∃ c rest f, s.freeCells = c :: rest ∧ s.record r = .receiving f ∧ cellReserve < s.freeCells.length ∧
      t = { s.setRecord r (.receiving { f with cells := f.cells ++ [c] }) with freeCells := rest } := by
  unfold State.takeCell at ht
  split at ht
  · rename_i c rest f hc hf
    split at ht
    · cases ht
      exact ⟨c, rest, f, hc, hf, ‹_›, rfl⟩
    · cases ht
  · cases ht

/-! ## The release of reply and order frame -/

@[simp] theorem releaseStep_station (j : Job) (new : Option RecordNo) (s : State) :
    (s.releaseStep j new).station = s.station := by cases new <;> simp [State.releaseStep]

@[simp] theorem releaseStep_entries (j : Job) (new : Option RecordNo) (s : State) :
    (s.releaseStep j new).entries = s.entries := by cases new <;> simp [State.releaseStep]

@[simp] theorem releaseStep_deques (j : Job) (new : Option RecordNo) (s : State) :
    (s.releaseStep j new).deques = s.deques := by cases new <;> simp [State.releaseStep]

@[simp] theorem releaseStep_mem (j : Job) (new : Option RecordNo) (s : State) :
    (s.releaseStep j new).mem = s.mem := by cases new <;> simp [State.releaseStep]

@[simp] theorem releaseStep_ports (j : Job) (new : Option RecordNo) (s : State) :
    (s.releaseStep j new).ports = s.ports := by cases new <;> simp [State.releaseStep]

@[simp] theorem releaseStep_claim (j : Job) (new : Option RecordNo) (s : State) :
    (s.releaseStep j new).claim = s.claim := by cases new <;> simp [State.releaseStep]

@[simp] theorem releaseStep_exc (j : Job) (new : Option RecordNo) (s : State) :
    (s.releaseStep j new).exc = s.exc := by cases new <;> simp [State.releaseStep]

@[simp] theorem releaseStep_check (j : Job) (new : Option RecordNo) (s : State) :
    (s.releaseStep j new).check = s.check := by cases new <;> simp [State.releaseStep]

/-! ## Memory and station (O53) -/

theorem storeByte_memoryLaw {s : State} (hs : MemoryLaw s) (r : RecordNo) (i : Nat) (b : Byte) :
    MemoryLaw (s.storeByte r i b) := by
  unfold State.storeByte
  split
  · exact Memory.wf_write hs (storedAddress_lt ..) b
  · exact hs

theorem build_memoryLaw {h : Header} {payload : List Byte} {r : RecordNo} {s t : State} (hs : MemoryLaw s)
    (ht : s.build h payload = some (r, t)) : MemoryLaw t := by
  obtain ⟨rest, -, -, rfl⟩ := build_granted ht
  exact wf_writeStored hs ..

theorem move_memoryLaw (s t : State) (hs : MemoryLaw s) (h : Move s t) : MemoryLaw t := by
  cases h with
  | storeByte p x b o w0 w1 w2 tl hx hn hw hb => exact storeByte_memoryLaw hs ..
  | storeInNewCell p x b o w0 w1 w2 tl t hx hn hw hb ht =>
    obtain ⟨c, rest, f, -, -, -, rfl⟩ := takeCell_granted ht
    refine storeByte_memoryLaw (s := { s.setRecord x.record _ with freeCells := rest }) ?_ ..
    exact hs
  | buildNotice h rs r t dest seqs hb hl ht => exact build_memoryLaw (t := t) hs ht
  | buildReply j status h r t he ht => exact build_memoryLaw (t := t) hs ht
  | resetTraffic e f ho hr hl => simpa [MemoryLaw, (resetTraffic_framesReset s).mem] using hs
  | resetFull e f ho hr hl => simpa [MemoryLaw, (resetFull_framesReset s).mem] using hs
  | hardReset straps => exact ⟨List.Pairwise.nil, fun _ h => nomatch h⟩
  | _ => simpa [MemoryLaw] using hs

theorem handOver_memoryLaw (s t : State) (hs : MemoryLaw s) (h : HandOver s t) : MemoryLaw t := by
  obtain ⟨p, x, f, h, -, -, -, -⟩ := h
  exact hs

theorem strapAddress_ne (straps : BitVec 12) : strapAddress straps ≠ broadcast := by
  unfold strapAddress
  split
  · decide
  · assumption

@[simp] theorem build_station {h : Header} {payload : List Byte} {r : RecordNo} {s t : State}
    (ht : s.build h payload = some (r, t)) : t.station = s.station := by
  obtain ⟨rest, -, -, rfl⟩ := build_granted ht
  rfl

theorem move_stationLaw (s t : State) (hs : StationLaw s) (h : Move s t) : StationLaw t := by
  cases h with
  | station a ha => exact ha
  | buildNotice h rs r t dest seqs hb hl ht =>
    obtain ⟨rest, -, -, rfl⟩ := build_granted ht
    exact hs
  | buildReply j status h r t he ht =>
    obtain ⟨rest, -, -, rfl⟩ := build_granted ht
    exact hs
  | storeInNewCell p x b o w0 w1 w2 tl t hx hn hw hb ht =>
    obtain ⟨c, rest, f, -, -, -, rfl⟩ := takeCell_granted ht
    simpa [StationLaw] using hs
  | hardReset straps => exact strapAddress_ne straps
  | _ => simpa [StationLaw] using hs

theorem handOver_stationLaw (s t : State) (hs : StationLaw s) (h : HandOver s t) : StationLaw t := by
  obtain ⟨p, x, f, h, -, -, -, -⟩ := h
  exact hs

/-- Settles O53: no move and no hand-over breaks either law, and a step is a chain of them. -/
theorem memoryAndStationKept : Obligations.MemoryAndStationKept := by
  unfold Obligations.MemoryAndStationKept
  intro s t hm hs h
  have hr := step_reaches h
  exact ⟨hr.keeps move_memoryLaw handOver_memoryLaw hm, hr.keeps move_stationLaw handOver_stationLaw hs⟩

end Sys2Proof.Machine
end

section
/-! SUPPORT. The steering table and the deques (tier 3). -/

namespace Sys2Proof.Machine

open Sys2Proof

/-! ## The table (R6, R16; O54) -/

theorem tableLaw_of_entries {s t : State} (h : t.entries = s.entries) (hs : TableLaw s) : TableLaw t := by
  simpa only [TableLaw, State.entry, h] using hs

theorem Key.overlaps_comm (k l : Key) : k.overlaps l = l.overlaps k := by
  simp only [Key.overlaps, BitVec.and_comm, eq_comm (a := k.dest)]

theorem EntryBody.valid_of_soundKey {b : EntryBody} {k : Key} (h : b.soundKey? = some k) :
    ∃ c, b = .valid (.sound c) ∧ c.key = k := by
  unfold EntryBody.soundKey? at h
  split at h
  · cases h; exact ⟨_, rfl, rfl⟩
  · cases h

/-- A key without a conflict overlaps no sound key of another VALID entry (R16). -/
theorem overlaps_of_conflict {s : State} {i j : EntryNo} {k l : Key} (hc : s.conflict i k = none) (hj : j ≠ i)
    (hl : (s.entry j).body.soundKey? = some l) : l.overlaps k = false := by
  obtain ⟨c, hb, rfl⟩ := EntryBody.valid_of_soundKey hl
  have hn := List.find?_eq_none.mp hc j (List.mem_finRange j)
  rw [Key.overlaps_comm]
  simpa [hj, hb, Stored.overlaps] using hn

theorem setEntry_tableLaw {s : State} (hs : TableLaw s) {i : EntryNo} {e : Entry}
    (h : ∀ k, e.body.soundKey? = some k → s.conflict i k = none) : TableLaw (s.setEntry i e) := by
  intro a b hab k l hk hl
  by_cases ha : a = i
  · subst ha
    rw [setEntry_entry_same] at hk
    rw [setEntry_entry_of_ne _ _ (Ne.symm hab)] at hl
    rw [Key.overlaps_comm]
    exact overlaps_of_conflict (h k hk) (Ne.symm hab) hl
  · rw [setEntry_entry_of_ne _ _ ha] at hk
    by_cases hb : b = i
    · subst hb
      rw [setEntry_entry_same] at hl
      exact overlaps_of_conflict (h l hl) ha hk
    · rw [setEntry_entry_of_ne _ _ hb] at hl
      exact hs a b hab k l hk hl

/-- A table of FREE entries has no overlap. -/
theorem tableLaw_of_free {s : State} (h : s.entries = resetEntries) : TableLaw s := by
  intro i j _ k l hk
  simp [State.entry, h, resetEntries, EntryBody.soundKey?] at hk

theorem resetTraffic_entries (s : State) : s.resetTraffic.entries = s.entries := by
  obtain ⟨x, n, h, -⟩ := resetFrames_shape s
  simp [State.resetTraffic, h]

theorem resetFull_entries (s : State) : s.resetFull.entries = resetEntries := by
  obtain ⟨x, n, h, -⟩ := resetFull_shape s
  rw [h]

theorem move_tableLaw (s t : State) (hs : TableLaw s) (h : Move s t) : TableLaw t := by
  cases h with
  | setEntry i e h => exact setEntry_tableLaw hs h
  | buildNotice h rs r t dest seqs hb hl ht =>
    obtain ⟨rest, -, -, rfl⟩ := build_granted ht
    exact hs
  | buildReply j status h r t he ht =>
    obtain ⟨rest, -, -, rfl⟩ := build_granted ht
    exact hs
  | storeInNewCell p x b o w0 w1 w2 tl t hx hn hw hb ht =>
    obtain ⟨c, rest, f, -, -, -, rfl⟩ := takeCell_granted ht
    exact tableLaw_of_entries (by simp) hs
  | resetTraffic e f ho hr hl => exact tableLaw_of_entries (resetTraffic_entries s) hs
  | resetFull e f ho hr hl => exact tableLaw_of_free (resetFull_entries s)
  | hardReset straps => exact tableLaw_of_free rfl
  | _ => exact tableLaw_of_entries (by simp) hs

theorem handOver_tableLaw (s t : State) (hs : TableLaw s) (h : HandOver s t) : TableLaw t := by
  obtain ⟨p, x, f, h, -, -, -, -⟩ := h
  exact hs

/-- Settles O54: entries change by writes without a conflict, and to bodies that are not VALID and sound. -/
theorem tableLawKept : Obligations.TableLawKept := by
  unfold Obligations.TableLawKept
  exact fun s t hs h => (step_reaches h).keeps move_tableLaw handOver_tableLaw hs

/-! ## What an arrival, a take and a drain do to the deques -/

theorem setDeque_deque (d e : DequeNo) (q : Deque) (s : State) :
    (s.setDeque d q).deque e = if e = d then q else s.deque e := by
  by_cases h : e = d
  · subst h; simp
  · rw [if_neg h, setDeque_deque_of_ne _ _ h]

/-- The three things that an arrival can come to (R32, R34). -/
theorem arrive_cases (d : DequeNo) (r : RecordNo) (e : Insertion) (s : State) :
    (s.arrive d r e).2 = s ∨
      ((s.deque d).state ≠ .detached ∧ r ∉ (s.deque d).entries ∧
        (((s.deque d).entries.length < (s.deque d).config.limit.toNat ∧
            (s.arrive d r e).2 =
              if (s.deque d).entries = [] then
                ((s.setDeque d { s.deque d with entries := place e r (s.deque d).entries }).addRef r).offer d
              else (s.setDeque d { s.deque d with entries := place e r (s.deque d).entries }).addRef r) ∨
          ∃ v rest, shedEntry (s.deque d).config.policy (s.deque d).entries = some (v, rest) ∧
            (s.arrive d r e).2 = s.shedInto d r e v rest)) := by
  by_cases ho : (s.deque d).state = .active ∨ (s.deque d).state = .paused
  · have opened : (s.deque d).state ≠ .detached := by rcases ho with ho | ho <;> simp [ho]
    by_cases hr : r ∈ (s.deque d).entries
    · exact .inl (congrArg Prod.snd (arrive_of_present ho hr))
    by_cases hl : (s.deque d).entries.length < (s.deque d).config.limit.toNat
    · exact .inr ⟨opened, hr, .inl ⟨hl, congrArg Prod.snd (arrive_of_room ho hr hl)⟩⟩
    cases hp : shedEntry (s.deque d).config.policy (s.deque d).entries with
    | none => exact .inl (by rcases ho with ho | ho <;> simp [State.arrive, ho, hr, hl, hp])
    | some x =>
      exact .inr ⟨opened, hr,
        .inr ⟨x.1, x.2, rfl, congrArg Prod.snd (arrive_of_full_shed ho hr (Nat.not_lt.mp hl) hp)⟩⟩
  · refine .inl (congrArg Prod.snd (arrive_of_closed ?_))
    cases hs : (s.deque d).state <;> simp_all

/-- The entry shed and the entries left are those of the deque (R34). -/
theorem shedEntry_perm {p : Policy} {l rest : List RecordNo} {v : RecordNo} (h : shedEntry p l = some (v, rest)) :
    l.Perm (v :: rest) := by
  unfold shedEntry at h
  split at h
  · cases h; exact .refl _
  · obtain ⟨w, hw, he⟩ := Option.map_eq_some_iff.mp h
    cases he
    rename_i a l'
    have : (a :: l').dropLast ++ [v] = a :: l' := List.dropLast_append_getLast? v hw
    calc a :: l' = (a :: l').dropLast ++ [v] := this.symm
      _ |>.Perm (v :: (a :: l').dropLast) := List.perm_append_singleton ..
  · cases h

theorem place_perm (e : Insertion) (r : RecordNo) (l : List RecordNo) : (place e r l).Perm (r :: l) := by
  cases e with
  | tail => exact List.perm_append_singleton r l
  | head => exact .refl _

/-- An arrival puts a record into one deque, or no deque changes. -/
theorem arrive_deques (d : DequeNo) (r : RecordNo) (e : Insertion) (s : State) :
    (s.arrive d r e).2.deques = s.deques ∨
      ∃ l, (s.arrive d r e).2.deques = (s.setDeque d { s.deque d with entries := place e r l }).deques ∧
        (s.deque d).state ≠ .detached ∧ r ∉ l ∧
        (l = (s.deque d).entries ∧ l.length < (s.deque d).config.limit.toNat ∨
          ∃ v, (s.deque d).entries.Perm (v :: l)) := by
  rcases arrive_cases d r e s with h | ⟨ho, hr, ⟨hl, h⟩ | ⟨v, rest, hp, h⟩⟩
  · exact .inl (congrArg State.deques h)
  · refine .inr ⟨_, ?_, ho, hr, .inl ⟨rfl, hl⟩⟩
    rw [h]
    split <;> simp
  · have hperm := shedEntry_perm hp
    refine .inr ⟨rest, ?_, ho, fun hm => hr (hperm.mem_iff.mpr (List.mem_cons_of_mem v hm)), .inr ⟨v, hperm⟩⟩
    rw [h]
    simp [State.shedInto, State.setDeque, State.deque]

/-- A take takes the head of one deque, or no deque changes. -/
theorem takeFrom_deques (p : Port) (c : Choice) (s : State) :
    (s.takeFrom p c).deques = s.deques ∨ ∃ r rest, (s.deque (c.deque p)).entries = r :: rest ∧
      (s.takeFrom p c).deques = (s.setDeque (c.deque p) { s.deque (c.deque p) with entries := rest }).deques := by
  simp only [State.takeFrom]
  split
  · exact .inl rfl
  · exact .inr ⟨_, _, ‹_›, by simp⟩

/-! ## Limits and repeats (R25; O55) -/

theorem dequeLaw_of_deques {s t : State} (h : t.deques = s.deques) (hs : DequeLaw s) : DequeLaw t := by
  simpa only [DequeLaw, State.deque, h] using hs

theorem setDeque_dequeLaw {s : State} (hs : DequeLaw s) {d : DequeNo} {q : Deque} (hq : q.lawful) :
    DequeLaw (s.setDeque d q) := by
  intro e
  rw [setDeque_deque]
  split
  · exact hq
  · exact hs e

theorem Deque.lawful.tail {q : Deque} (h : q.lawful) {r : RecordNo} {rest : List RecordNo} (he : q.entries = r :: rest)
    {x : DequeState} (hx : x = .detached → rest = []) : Deque.lawful { q with entries := rest, state := x } := by
  obtain ⟨hn, hl, -⟩ := h
  rw [he] at hn hl
  exact ⟨hn.of_cons, Nat.le_of_succ_le hl, hx⟩

theorem Deque.lawful.take {q : Deque} (h : q.lawful) {r : RecordNo} {rest : List RecordNo} (he : q.entries = r :: rest) :
    Deque.lawful { q with entries := rest } :=
  h.tail he fun hd => by rw [h.2.2 hd] at he; cases he

theorem Deque.lawful.placed {q : Deque} (h : q.lawful) {r : RecordNo} {l : List RecordNo} (hr : r ∉ l)
    (ho : q.state ≠ .detached)
    (hl : l = q.entries ∧ l.length < q.config.limit.toNat ∨ ∃ v, q.entries.Perm (v :: l)) (e : Insertion) :
    Deque.lawful { q with entries := place e r l } := by
  obtain ⟨hn, hle, -⟩ := h
  have hln : l.Nodup ∧ l.length < q.config.limit.toNat := by
    rcases hl with ⟨rfl, hlt⟩ | ⟨v, hp⟩
    · exact ⟨hn, hlt⟩
    · have hlen : q.entries.length = l.length + 1 := hp.length_eq
      exact ⟨(hp.nodup hn).of_cons, by omega⟩
  refine ⟨(place_perm e r l).nodup_iff.mpr (List.nodup_cons.mpr ⟨hr, hln.1⟩), ?_, fun hd => absurd hd ho⟩
  rw [(place_perm e r l).length_eq]
  exact hln.2

theorem arrive_dequeLaw {s : State} (hs : DequeLaw s) (d : DequeNo) (r : RecordNo) (e : Insertion) :
    DequeLaw (s.arrive d r e).2 := by
  rcases arrive_deques d r e s with h | ⟨l, h, ho, hr, hl⟩
  · exact dequeLaw_of_deques h hs
  · exact dequeLaw_of_deques h (setDeque_dequeLaw hs ((hs d).placed hr ho hl e))

theorem takeFrom_dequeLaw {s : State} (hs : DequeLaw s) (p : Port) (c : Choice) : DequeLaw (s.takeFrom p c) := by
  rcases takeFrom_deques p c s with h | ⟨r, rest, he, h⟩
  · exact dequeLaw_of_deques h hs
  · exact dequeLaw_of_deques h (setDeque_dequeLaw hs ((hs _).take he))

theorem dequeLaw_of_empty {s : State} (h : ∀ d, (s.deque d).entries = []) : DequeLaw s := by
  intro d
  simp [Deque.lawful, h d]

theorem move_dequeLaw (s t : State) (hs : DequeLaw s) (h : Move s t) : DequeLaw t := by
  cases h with
  | arrive d r e hr => exact arrive_dequeLaw hs d r e
  | takeFrom p c ht hu => exact takeFrom_dequeLaw hs p c
  | drain d target n r rest x hst he hx =>
    exact dequeLaw_of_deques (by simp) (setDeque_dequeLaw (d := d) hs ((hs d).tail he hx))
  | dequeConfig d c hd hst =>
    have he := (hs d).2.2 hst
    exact setDeque_dequeLaw hs ⟨by simp [he], by simp [he], fun _ => he⟩
  | dequeState d x hd hx =>
    obtain ⟨hn, hl, -⟩ := hs d
    exact setDeque_dequeLaw hs ⟨hn, hl, hx⟩
  | takeOrder r rest j status next he hq hj hr hst hn =>
    exact dequeLaw_of_deques rfl (setDeque_dequeLaw (d := intake) hs ((hs intake).take hq))
  | buildNotice h rs r t dest seqs hb hl ht =>
    obtain ⟨rest, -, -, rfl⟩ := build_granted ht
    exact hs
  | buildReply j status h r t he ht =>
    obtain ⟨rest, -, -, rfl⟩ := build_granted ht
    exact hs
  | storeInNewCell p x b o w0 w1 w2 tl t hx hn hw hb ht =>
    obtain ⟨c, rest, f, -, -, -, rfl⟩ := takeCell_granted ht
    exact dequeLaw_of_deques (by simp) hs
  | resetTraffic e f ho hr hl => exact dequeLaw_of_deques (s := s.resetTraffic) rfl (dequeLaw_of_empty (resetTraffic_framesReset s).entries)
  | resetFull e f ho hr hl => exact dequeLaw_of_deques (s := s.resetFull) rfl (dequeLaw_of_empty (resetFull_framesReset s).entries)
  | hardReset straps =>
    refine dequeLaw_of_empty (s := afterHardReset straps (strapAddress straps) s.freeDraws s.pending) fun d => ?_
    rw [afterHardReset_deque]
    rfl
  | _ => exact dequeLaw_of_deques (by simp) hs

theorem handOver_dequeLaw (s t : State) (hs : DequeLaw s) (h : HandOver s t) : DequeLaw t := by
  obtain ⟨p, x, f, h, -, -, -, -⟩ := h
  exact hs

/-! ## The fixed deques (R28; O55) -/

/-- Configuration and state of each fixed deque are those of the other state. -/
theorem fixedLaw_of_same {s t : State} (hs : FixedLaw s)
    (h : ∀ d : DequeNo, 28 ≤ d.val → (t.deque d).config = (s.deque d).config ∧ (t.deque d).state = (s.deque d).state) :
    FixedLaw t := by
  intro d hd
  rw [(h d hd).1, (h d hd).2]
  exact hs d hd

theorem fixedLaw_of_deques {s t : State} (h : t.deques = s.deques) (hs : FixedLaw s) : FixedLaw t :=
  fixedLaw_of_same hs fun d _ => by simp [State.deque, h]

/-- Entries of a deque may change. -/
theorem setDeque_entries_fixedLaw {s : State} (hs : FixedLaw s) (d : DequeNo) (l : List RecordNo) :
    FixedLaw (s.setDeque d { s.deque d with entries := l }) := by
  refine fixedLaw_of_same hs fun e _ => ?_
  rw [setDeque_deque]
  split <;> simp_all

/-- Anything of a deque that is not fixed may change. -/
theorem setDeque_fixedLaw {s : State} (hs : FixedLaw s) {d : DequeNo} (hd : d.val < 28) (q : Deque) :
    FixedLaw (s.setDeque d q) := by
  refine fixedLaw_of_same hs fun e he => ?_
  rw [setDeque_deque, if_neg]
  · exact ⟨rfl, rfl⟩
  · rintro rfl; omega

theorem fixedLaw_of_reset {s : State} (h : s.deques = resetDeques) : FixedLaw s := by
  have active : ∀ d : DequeNo, 28 ≤ d.val → (resetDeque d).state = .active := by decide
  intro d hd
  have hq : s.deque d = resetDeque d := by simp [State.deque, h, resetDeques]
  rw [hq]
  exact ⟨rfl, active d hd⟩

theorem move_fixedLaw (s t : State) (hs : FixedLaw s) (h : Move s t) : FixedLaw t := by
  cases h with
  | arrive d r e hr =>
    rcases arrive_deques d r e s with h | ⟨l, h, -⟩
    · exact fixedLaw_of_deques h hs
    · exact fixedLaw_of_deques h (setDeque_entries_fixedLaw hs _ _)
  | takeFrom p c ht hu =>
    rcases takeFrom_deques p c s with h | ⟨r, rest, -, h⟩
    · exact fixedLaw_of_deques h hs
    · exact fixedLaw_of_deques h (setDeque_entries_fixedLaw hs _ _)
  | drain d target n r rest x hst he hx =>
    have hd : d.val < 28 := by
      by_contra hd
      have := (hs d (Nat.not_lt.mp hd)).2
      rw [hst] at this
      cases this
    exact fixedLaw_of_deques (by simp) (setDeque_fixedLaw hs hd { s.deque d with entries := rest, state := x })
  | dequeConfig d c hd hst => exact setDeque_fixedLaw hs hd _
  | dequeState d x hd hx => exact setDeque_fixedLaw hs hd _
  | takeOrder r rest j status next he hq hj hr hst hn =>
    exact fixedLaw_of_deques rfl (setDeque_entries_fixedLaw hs intake rest)
  | buildNotice h rs r t dest seqs hb hl ht =>
    obtain ⟨rest, -, -, rfl⟩ := build_granted ht
    exact hs
  | buildReply j status h r t he ht =>
    obtain ⟨rest, -, -, rfl⟩ := build_granted ht
    exact hs
  | storeInNewCell p x b o w0 w1 w2 tl t hx hn hw hb ht =>
    obtain ⟨c, rest, f, -, -, -, rfl⟩ := takeCell_granted ht
    exact fixedLaw_of_deques (by simp) hs
  | resetTraffic e f ho hr hl =>
    obtain ⟨x, n, h, -⟩ := resetFrames_shape s
    refine fixedLaw_of_same hs fun d _ => ?_
    simp [State.resetTraffic, h, State.deque]
  | resetFull e f ho hr hl =>
    obtain ⟨x, n, h, -⟩ := resetFull_shape s
    exact fixedLaw_of_reset (by rw [h])
  | hardReset straps => exact fixedLaw_of_reset rfl
  | _ => exact fixedLaw_of_deques (by simp) hs

theorem handOver_fixedLaw (s t : State) (hs : FixedLaw s) (h : HandOver s t) : FixedLaw t := by
  obtain ⟨p, x, f, h, -, -, -, -⟩ := h
  exact hs

/-- Settles O55: entries come by arrivals and go by takes, drains and resets; only deques 0 to 27 change otherwise. -/
theorem dequeLawsKept : Obligations.DequeLawsKept := by
  unfold Obligations.DequeLawsKept
  exact ⟨fun s t hs h => (step_reaches h).keeps move_dequeLaw handOver_dequeLaw hs,
    fun s t hs h => (step_reaches h).keeps move_fixedLaw handOver_fixedLaw hs⟩

end Sys2Proof.Machine
end

section
/-! SUPPORT. The laws of one port: transmitter, runs, admission and waiting groups (tier 3). -/

namespace Sys2Proof.Machine

open Sys2Proof

/-! ## What keeps the laws of a port -/

/-- What an admission unit holds is what its step needs (R68). -/
def AdmissionUnit.lawful : AdmissionUnit → Prop
  | .idle => True
  | .admitting a => a.lawful

/-- A port goes over from `y` to `z` with each of the four laws that look at one port kept by itself. -/
structure PortKeeps (y z : PortState) : Prop where
  transmitter : (y.link.isUp = false → y.transmitter = .idle) → z.link.isUp = false → z.transmitter = .idle
  run : y.link.inRange → z.link.inRange
  admission : y.admission.lawful → z.admission.lawful
  waiting : (y.lineWaits ≠ [] → y.link.isUp = true) → z.lineWaits ≠ [] → z.link.isUp = true

theorem PortKeeps.refl (y : PortState) : PortKeeps y y := ⟨id, id, id, id⟩

theorem portKeeps_of_ports {s t : State} (h : t.ports = s.ports) (q : Port) : PortKeeps (s.port q) (t.port q) := by
  rw [State.port, State.port, h]
  exact .refl _

theorem portKeeps_trans_ports {y : PortState} {t u : State} {q : Port} (h : u.ports = t.ports)
    (hk : PortKeeps y (t.port q)) : PortKeeps y (u.port q) := by
  rwa [State.port, h]

theorem setPort_portKeeps {s : State} {p : Port} {y : PortState} (h : PortKeeps (s.port p) y) (q : Port) :
    PortKeeps (s.port q) ((s.setPort p y).port q) := by
  by_cases hq : q = p
  · subst hq
    rwa [setPort_port_same]
  · rw [setPort_port_of_ne _ _ hq]
    exact .refl _

/-- A transmitter that goes idle. -/
theorem PortKeeps.stop (y : PortState) : PortKeeps y { y with transmitter := .idle } := ⟨fun _ _ => rfl, id, id, id⟩

/-- A transmitter of an UP link. -/
theorem PortKeeps.send {y z : PortState} (hu : y.link.isUp = true) (hl : z.link = y.link)
    (ha : z.admission = y.admission) (hw : z.lineWaits = y.lineWaits) : PortKeeps y z where
  transmitter _ hz := by rw [hl, hu] at hz; cases hz
  run := by rw [hl]; exact id
  admission := by rw [ha]; exact id
  waiting := by rw [hl, hw]; exact id

theorem PortKeeps.setAdmission (y : PortState) {a : AdmissionUnit} (ha : y.admission.lawful → a.lawful) :
    PortKeeps y { y with admission := a } := ⟨id, id, ha, id⟩

theorem PortKeeps.link (y : PortState) {l : LinkState} (hr : l.inRange)
    (hu : y.link.isUp = true → l.isUp = false → y.transmitter = .idle ∧ y.receiver.empty ∧ y.lineWaits = []) :
    PortKeeps y { y with link := l } where
  transmitter hy hz := by
    cases h : y.link.isUp with
    | true => exact (hu h hz).1
    | false => exact hy h
  run _ := hr
  admission := id
  waiting hy hw := by
    have h := hy hw
    cases hl : l.isUp with
    | true => rfl
    | false => exact absurd (hu h hl).2.2 hw

theorem PortKeeps.waits (y : PortState) {w : List LineGroup} (hw : w ≠ [] → y.link.isUp = true ∨ y.lineWaits ≠ []) :
    PortKeeps y { y with lineWaits := w } where
  transmitter := id
  run := id
  admission := id
  waiting hy hz := (hw hz).elim id hy

theorem PortKeeps.afterReset (y : PortState) (o : Option LineFrame) (m : Bool × Vector GeneralNo 8) :
    PortKeeps y { y.afterReset o with held := m.1, markers := m.2 } := ⟨fun _ _ => rfl, id, fun _ => trivial, id⟩

theorem PortKeeps.hardReset (y : PortState) : PortKeeps y resetPort :=
  ⟨fun _ _ => rfl, fun _ => trivial, fun _ => trivial, fun _ h => absurd rfl h⟩

/-! ## Every move keeps them -/

theorem moveMarker_port (p : Port) (c : Choice) (s : State) :
    ∃ m, s.moveMarker p c = s.setPort p { s.port p with markers := m } := by
  unfold State.moveMarker
  split
  · exact ⟨(s.port p).markers, (setPort_self p s).symm⟩
  · exact ⟨_, rfl⟩

/-- Any change of a receiver. -/
theorem setReceiver_portKeeps {s u : State} (hu : u.ports = s.ports) (p : Port) (x : Receiver) (q : Port) :
    PortKeeps (s.port q) ((u.setReceiver p x).port q) := by
  have h : s.port q = u.port q := by rw [State.port, State.port, hu]
  rw [h]
  exact setPort_portKeeps (s := u) (y := { u.port p with receiver := x }) ⟨id, id, id, id⟩ q

/-- What a take does to the port: the marker moves, and the transmitter sends unless the head had expired. -/
theorem takeFrom_ports (p : Port) (c : Choice) (s : State) :
    (s.takeFrom p c).ports = s.ports ∨
      ∃ m x, (s.takeFrom p c).ports = (s.setPort p { s.port p with markers := m, transmitter := x }).ports := by
  simp only [State.takeFrom]
  split
  · exact .inl rfl
  · rename_i r rest hr
    obtain ⟨m, hm⟩ := moveMarker_port p c (s.setDeque (c.deque p) { s.deque (c.deque p) with entries := rest })
    refine .inr ⟨m, ?_⟩
    rw [hm]
    unfold State.sendOrDrop
    split
    · exact ⟨(s.port p).transmitter, by simp [State.setPort, State.port]⟩
    · exact ⟨.sending r (c.deque p) _, by
        simp [State.setTransmitter, State.updPort, State.setPort, State.port, PerPort.set_set]; rfl⟩

theorem takeFrom_portKeeps {s : State} {p : Port} (c : Choice) (hu : (s.port p).link.isUp = true) (q : Port) :
    PortKeeps (s.port q) ((s.takeFrom p c).port q) := by
  rcases takeFrom_ports p c s with h | ⟨m, x, h⟩
  · exact portKeeps_of_ports h q
  · rw [State.port, State.port, h]
    exact setPort_portKeeps (s := s) (y := { s.port p with markers := m, transmitter := x }) (.send hu rfl rfl rfl) q

theorem FramesReset.portKeeps {s t : State} (h : FramesReset s t) (q : Port) : PortKeeps (s.port q) (t.port q) := by
  obtain ⟨o, m, ho⟩ := h.port q
  rw [ho]
  exact .afterReset _ o m

theorem move_portKeeps {s t : State} (h : Move s t) (q : Port) : PortKeeps (s.port q) (t.port q) := by
  cases h with
  | portAside p y hl hr ht ha hw =>
    refine setPort_portKeeps ⟨?_, ?_, ?_, ?_⟩ q
    · rw [hl, ht]; exact id
    · rw [hl]; exact id
    · rw [ha]; exact id
    · rw [hl, hw]; exact id
  | link p l hr hu => exact setPort_portKeeps (.link _ hr hu) q
  | lineWaits p w hw => exact setPort_portKeeps (.waits _ hw) q
  | beginFrame p r rest hf he hu => exact setReceiver_portKeeps rfl ..
  | giveBack p x y hx hy => exact setReceiver_portKeeps (by simp) ..
  | emptyReceiver p y he hy => exact setReceiver_portKeeps rfl ..
  | markDamage p x hx => exact setReceiver_portKeeps rfl ..
  | fillWindow p x b hx hw => exact setReceiver_portKeeps rfl ..
  | storeByte p x b o w0 w1 w2 tl hx hn hw hb => exact setReceiver_portKeeps (by simp) ..
  | storeInNewCell p x b o w0 w1 w2 tl t hx hn hw hb ht =>
    obtain ⟨c, rest, f, -, -, -, rfl⟩ := takeCell_granted ht
    exact setReceiver_portKeeps (by simp) ..
  | admission p a b ha hf hl =>
    refine setPort_portKeeps (.setAdmission _ ?_) q
    rw [ha]
    exact hl
  | admissionRelease p a ha =>
    have h : PortKeeps (s.port q) ((s.setPort p { s.port p with admission := .idle }).port q) :=
      setPort_portKeeps (.setAdmission _ (a := .idle) fun _ => trivial) q
    simpa [State.admissionRelease, State.setAdmission, State.updPort, State.setPort, State.port] using h
  | takeFrom p c ht hu => exact takeFrom_portKeeps c hu q
  | stopSending p r d unread ht =>
    have h : PortKeeps (s.port q) ((s.setPort p { s.port p with transmitter := .idle }).port q) :=
      setPort_portKeeps (.stop _) q
    simpa [State.setTransmitter, State.updPort, State.setPort, State.port] using h
  | readOn p r d unread rest ht hs =>
    refine setPort_portKeeps (y := { s.port p with transmitter := .sending r d rest }) ⟨fun hy hz => ?_, id, id, id⟩ q
    have := hy hz
    rw [ht] at this
    cases this
  | buildNotice h rs r t dest seqs hb hl ht =>
    obtain ⟨rest, -, -, rfl⟩ := build_granted ht
    exact .refl _
  | buildReply j status h r t he ht =>
    obtain ⟨rest, -, -, rfl⟩ := build_granted ht
    exact .refl _
  | resetTraffic e f ho hr hl => exact portKeeps_trans_ports (t := s.resetTraffic) rfl ((resetTraffic_framesReset s).portKeeps q)
  | resetFull e f ho hr hl => exact portKeeps_trans_ports (t := s.resetFull) rfl ((resetFull_framesReset s).portKeeps q)
  | hardReset straps =>
    have : (afterHardReset straps (strapAddress straps) s.freeDraws s.pending).port q = resetPort :=
      afterHardReset_port ..
    exact this ▸ .hardReset _
  | _ => exact portKeeps_of_ports (by simp) q

/-- What a unit holds right after the hand-over (R69). -/
theorem firstStep_lawful (r : RecordNo) (a : Address) (h : Header) :
    Admitting.lawful ⟨r, a, choosePath a h, none, none, firstStep (choosePath a h) h⟩ := by
  generalize choosePath a h = path
  cases path with
  | own => by_cases hk : h.kind = Kind.order <;> simp [firstStep, hk, Admitting.lawful]
  | broadcastOrder => simp [firstStep, Admitting.lawful]
  | steered => simp [firstStep, Admitting.lawful]

theorem handOver_portKeeps {s t : State} (h : HandOver s t) (q : Port) : PortKeeps (s.port q) (t.port q) := by
  obtain ⟨p, x, f, h, -, -, -, -⟩ := h
  have hk (a : Admitting) (ha : a.lawful) :
      PortKeeps (s.port p) { s.port p with receiver := .idle, admission := .admitting a } :=
    ⟨id, id, fun _ => ha, id⟩
  simpa [State.handOver, State.setReceiver, State.setAdmission, State.updPort, State.setPort, State.setRecord, State.port,
    PerPort.set_set] using
    setPort_portKeeps (hk _ (firstStep_lawful x.record s.station h)) q

/-- A law that says the same of every port is kept, if ports keep it. -/
theorem portLaw_kept {P : PortState → Prop} (hP : ∀ y z, PortKeeps y z → P y → P z) {s t : State} (hs : ∀ p, P (s.port p))
    (h : step s = .next t) : ∀ p, P (t.port p) :=
  (step_reaches h).keeps (I := fun s => ∀ p, P (s.port p)) (fun _ _ hs hm p => hP _ _ (move_portKeeps hm p) (hs p))
    (fun _ _ hs hm p => hP _ _ (handOver_portKeeps hm p) (hs p)) hs

/-- Settles O56: each of the four laws says the same of every port, and a port that changes keeps it. -/
theorem portLawsKept : Obligations.PortLawsKept := by
  unfold Obligations.PortLawsKept
  refine ⟨?transmitter, ?run, ?admission, ?waiting⟩
  case transmitter => exact fun s t hs h => portLaw_kept (fun _ _ hk => hk.transmitter) hs h
  case run => exact fun s t hs h => portLaw_kept (P := fun y => y.link.inRange) (fun _ _ hk => hk.run) hs h
  case admission =>
    exact fun s t hs h => portLaw_kept (P := fun y => y.admission.lawful) (fun _ _ hk => hk.admission) hs h
  case waiting => exact fun s t hs h => portLaw_kept (fun _ _ hk => hk.waiting) hs h

end Sys2Proof.Machine
end

section
/-! SUPPORT. The pool: which moves touch records and free queues, and what each leaves of a record (tier 3). -/

namespace Sys2Proof.Machine

open Sys2Proof

/-! ## Steps of the pool that look at HELD records alone -/

/-- Records and free queues are the same. -/
structure SamePool (s t : State) : Prop where
  records : t.records = s.records
  freeCells : t.freeCells = s.freeCells
  freeRecords : t.freeRecords = s.freeRecords

theorem SamePool.refl (s : State) : SamePool s s := ⟨rfl, rfl, rfl⟩

theorem SamePool.record {s t : State} (h : SamePool s t) (r : RecordNo) : t.record r = s.record r := by
  rw [State.record, State.record, h.records]

theorem SamePool.trans {s t u : State} (h : SamePool s t) (g : SamePool t u) : SamePool s u :=
  ⟨g.records.trans h.records, g.freeCells.trans h.freeCells, g.freeRecords.trans h.freeRecords⟩

theorem SamePool.setRecord {s t : State} (h : SamePool s t) (r : RecordNo) (x : FrameRecord) :
    SamePool (s.setRecord r x) (t.setRecord r x) :=
  ⟨by simp [h.records], by simp [h.freeCells], by simp [h.freeRecords]⟩

theorem SamePool.freeFrame {s t : State} (h : SamePool s t) (r : RecordNo) (cells : List CellNo) :
    SamePool (s.freeFrame r cells) (t.freeFrame r cells) :=
  ⟨by simp [h.records], by simp [h.freeCells], by simp [h.freeRecords]⟩

theorem SamePool.release {s t : State} (h : SamePool s t) (r : RecordNo) : SamePool (s.release r) (t.release r) := by
  unfold State.release
  rw [h.record r]
  split
  · split
    · exact h.freeFrame ..
    · exact h.setRecord ..
  · exact h

theorem SamePool.addRef {s t : State} (h : SamePool s t) (r : RecordNo) : SamePool (s.addRef r) (t.addRef r) := by
  unfold State.addRef
  rw [h.record r]
  split
  · exact h.setRecord ..
  · exact h

/-- Every HELD record has a reference. -/
def Counted (s : State) : Prop := ∀ r h, s.record r = .held h → 1 ≤ h.count

/-- Counts and headers of HELD records change, and frames whose last reference goes are freed. -/
structure PoolKeeps (s t : State) : Prop where
  receiving : ∀ r f, t.record r = .receiving f ↔ s.record r = .receiving f
  held : ∀ r h', t.record r = .held h' → ∃ h, s.record r = .held h ∧ h'.cells = h.cells ∧ h'.length = h.length
  pool : PoolLaw s → PoolLaw t
  counted : Counted s → Counted t

theorem poolLaw_of_samePool {s t : State} (h : SamePool s t) (hs : PoolLaw s) : PoolLaw t := by
  simpa only [PoolLaw, State.listedCells, State.record, h.records, h.freeCells, h.freeRecords] using hs

theorem SamePool.keeps {s t : State} (h : SamePool s t) : PoolKeeps s t where
  receiving r f := by rw [h.record]
  held r h' hh := ⟨h', by rwa [h.record] at hh, rfl, rfl⟩
  pool := poolLaw_of_samePool h
  counted hc r x hx := hc r x (by rwa [h.record] at hx)

theorem PoolKeeps.refl (s : State) : PoolKeeps s s := (SamePool.refl s).keeps

theorem PoolKeeps.trans {s t u : State} (h : PoolKeeps s t) (g : PoolKeeps t u) : PoolKeeps s u where
  receiving r f := (g.receiving r f).trans (h.receiving r f)
  held r h2 hh := by
    obtain ⟨h1, hh1, hc1, hl1⟩ := g.held r h2 hh
    obtain ⟨h0, hh0, hc0, hl0⟩ := h.held r h1 hh1
    exact ⟨h0, hh0, hc1.trans hc0, hl1.trans hl0⟩
  pool := g.pool ∘ h.pool
  counted := g.counted ∘ h.counted

/-! ### One record written -/

theorem setRecord_record (r q : RecordNo) (x : FrameRecord) (s : State) :
    (s.setRecord r x).record q = if q = r then x else s.record q := by
  by_cases h : q = r
  · subst h; simp
  · rw [if_neg h, setRecord_record_of_ne _ _ h]

/-- The cells of a record that is written leave the list, and its new cells enter it. -/
theorem listedCells_setRecord (r : RecordNo) (x : FrameRecord) (s : State) :
    ((s.setRecord r x).listedCells ++ (s.record r).cells).Perm (s.listedCells ++ x.cells) := by
  have hr : r.val < s.records.toList.length := by simp
  have hget : s.record r = s.records.toList[r.val] := by simp [State.record]
  have hset : (s.setRecord r x).records.toList = s.records.toList.set r.val x := by
    rw [setRecord_records, Vector.toList_set]
  have hl : s.records.toList = s.records.toList.take r.val ++ s.record r :: s.records.toList.drop (r.val + 1) := by
    rw [hget, List.cons_getElem_drop_succ, List.take_append_drop]
  rw [State.listedCells, State.listedCells, hset, List.set_eq_take_append_cons_drop, if_pos hr]
  nth_rewrite 3 [hl]
  simp only [List.flatMap_append, List.flatMap_cons, List.append_assoc]
  refine List.Perm.append_left _ ?_
  generalize List.flatMap FrameRecord.cells (s.records.toList.drop (r.val + 1)) = l
  calc (x.cells ++ (l ++ (s.record r).cells))
    _ |>.Perm ((l ++ (s.record r).cells) ++ x.cells) := List.perm_append_comm
    _ |>.Perm (((s.record r).cells ++ l) ++ x.cells) := List.Perm.append_right _ List.perm_append_comm
    _ = (s.record r).cells ++ (l ++ x.cells) := List.append_assoc ..

/-- The pool after one record was written and the free queues with it. -/
theorem poolLaw_of_setRecord {s t : State} (hs : PoolLaw s) {r : RecordNo} {x : FrameRecord}
    (ht : t.records = (s.setRecord r x).records)
    (hc : (t.freeCells ++ x.cells).Perm (s.freeCells ++ (s.record r).cells)) (hn : t.freeRecords.Nodup)
    (hf : ∀ q, q ∈ t.freeRecords ↔ if q = r then x = .free else q ∈ s.freeRecords) : PoolLaw t := by
  obtain ⟨h1, h2, h3⟩ := hs
  have hrec (q : RecordNo) : t.record q = if q = r then x else s.record q := by
    rw [← setRecord_record, State.record, State.record, ht]
  refine ⟨?_, hn, fun q => ?_⟩
  · have hl : t.listedCells = (s.setRecord r x).listedCells := by rw [State.listedCells, State.listedCells, ht]
    rw [hl]
    refine List.Perm.trans ?_ h1
    have hp := listedCells_setRecord r x s
    rw [← List.perm_append_right_iff (s.record r).cells, ← List.perm_append_right_iff x.cells]
    calc (t.freeCells ++ (s.setRecord r x).listedCells ++ (s.record r).cells) ++ x.cells
      _ |>.Perm ((t.freeCells ++ (s.listedCells ++ x.cells)) ++ x.cells) :=
        List.Perm.append_right _ (by rw [List.append_assoc]; exact hp.append_left _)
      _ |>.Perm ((s.listedCells ++ (t.freeCells ++ x.cells)) ++ x.cells) := by
        refine List.Perm.append_right _ ?_
        rw [← List.append_assoc, ← List.append_assoc]
        exact List.perm_append_comm.append_right _
      _ |>.Perm ((s.listedCells ++ (s.freeCells ++ (s.record r).cells)) ++ x.cells) :=
        List.Perm.append_right _ (hc.append_left _)
      _ |>.Perm ((s.freeCells ++ s.listedCells ++ (s.record r).cells) ++ x.cells) := by
        refine List.Perm.append_right _ ?_
        rw [← List.append_assoc]
        exact List.perm_append_comm.append_right _
  · rw [hf q, hrec q]
    split
    · rfl
    · exact h3 q

/-- A record that is written and was not FREE and is not FREE. -/
theorem poolLaw_rewritten {s t : State} (hs : PoolLaw s) {r : RecordNo} {x : FrameRecord}
    (ht : t.records = (s.setRecord r x).records) (hr : s.record r ≠ .free) (hx : x ≠ .free)
    (hc : (t.freeCells ++ x.cells).Perm (s.freeCells ++ (s.record r).cells)) (hq : t.freeRecords = s.freeRecords) :
    PoolLaw t := by
  refine poolLaw_of_setRecord hs ht hc (hq ▸ hs.2.1) fun q => ?_
  rw [hq]
  split
  · rename_i h
    rw [h, hs.2.2 r]
    exact iff_of_false hr hx
  · rfl

/-- A FREE record that is taken from the head of the free queue. -/
theorem poolLaw_taken {s t : State} (hs : PoolLaw s) {r : RecordNo} {x : FrameRecord}
    (ht : t.records = (s.setRecord r x).records) (hq : s.freeRecords = r :: t.freeRecords) (hx : x ≠ .free)
    (hc : (t.freeCells ++ x.cells).Perm s.freeCells) : PoolLaw t := by
  have hn : (r :: t.freeRecords).Nodup := hq ▸ hs.2.1
  obtain ⟨hr, hn⟩ := List.nodup_cons.mp hn
  have hfree : s.record r = .free := (hs.2.2 r).mp (by rw [hq]; exact List.mem_cons_self)
  refine poolLaw_of_setRecord hs ht ?_ hn fun q => ?_
  · simpa [hfree, FrameRecord.cells] using hc
  · rw [hq]
    split
    · rename_i h
      exact iff_of_false (h ▸ hr) hx
    · rename_i h
      simp [h]

/-- A record that becomes FREE. -/
theorem freeFrame_poolLaw {s : State} (hs : PoolLaw s) {r : RecordNo} (hr : s.record r ≠ .free) :
    PoolLaw (s.freeFrame r (s.record r).cells) := by
  have hn : r ∉ s.freeRecords := fun h => hr ((hs.2.2 r).mp h)
  refine poolLaw_of_setRecord hs rfl ?_ ?_ fun q => ?_
  · simp [FrameRecord.cells]
  · exact List.nodup_append_comm.mp (List.nodup_cons.mpr ⟨hn, hs.2.1⟩)
  · simp only [freeFrame_freeRecords, List.mem_append, List.mem_singleton]
    split
    · rename_i h; simp [h]
    · rename_i h; simp [h]

/-! ### Releases and additions -/

theorem freeFrame_record (r q : RecordNo) (cells : List CellNo) (s : State) :
    (s.freeFrame r cells).record q = if q = r then .free else s.record q := setRecord_record r q .free s

/-- A HELD record that is written again with the frame it has. -/
theorem rewriteHeld_keeps {s : State} {r : RecordNo} {h h' : HeldFrame} (hr : s.record r = .held h)
    (hc : h'.cells = h.cells) (hl : h'.length = h.length) (hn : 1 ≤ h.count → 1 ≤ h'.count) :
    PoolKeeps s (s.setRecord r (.held h')) where
  receiving q f := by
    rw [setRecord_record]
    split
    · rename_i hq; rw [hq, hr]; simp
    · rfl
  held q x hx := by
    rw [setRecord_record] at hx
    split at hx
    · rename_i hq
      cases hx
      exact ⟨h, hq ▸ hr, hc, hl⟩
    · exact ⟨x, hx, rfl, rfl⟩
  pool hs := poolLaw_rewritten hs (r := r) (x := .held h') rfl (by rw [hr]; simp) (by simp)
    (by rw [hr]; simp [FrameRecord.cells, hc]) rfl
  counted hs q x hx := by
    rw [setRecord_record] at hx
    split at hx
    · cases hx
      exact hn (hs r h hr)
    · exact hs q x hx

theorem release_keeps (r : RecordNo) (s : State) : PoolKeeps s (s.release r) := by
  cases hr : s.record r with
  | free =>
    have : s.release r = s := by simp [State.release, hr]
    rw [this]
    exact .refl s
  | receiving f =>
    have : s.release r = s := by simp [State.release, hr]
    rw [this]
    exact .refl s
  | held h =>
    obtain hc | hc := Nat.lt_or_ge 1 h.count
    · rw [release_of_shared hr hc]
      exact rewriteHeld_keeps hr rfl rfl fun _ => show 1 ≤ h.count - 1 by omega
    · rw [release_of_last hr hc]
      exact {
        receiving := fun q f => by
          rw [freeFrame_record]
          split
          · rename_i hq; rw [hq, hr]; simp
          · rfl
        held := fun q x hx => by
          rw [freeFrame_record] at hx
          split at hx
          · cases hx
          · exact ⟨x, hx, rfl, rfl⟩
        pool := fun hs => by
          have := freeFrame_poolLaw hs (r := r) (by rw [hr]; simp)
          rwa [hr] at this
        counted := fun hs q x hx => by
          rw [freeFrame_record] at hx
          split at hx
          · cases hx
          · exact hs q x hx }

theorem addRef_keeps (r : RecordNo) (s : State) : PoolKeeps s (s.addRef r) := by
  unfold State.addRef
  split
  · rename_i h hr
    exact rewriteHeld_keeps hr rfl rfl fun _ => Nat.le_add_left 1 h.count
  · exact .refl s

theorem applyHopRule_keeps (r : RecordNo) (rule : HopRule) (s : State) : PoolKeeps s (s.applyHopRule r rule) := by
  unfold State.applyHopRule
  split
  · rename_i h hr
    exact rewriteHeld_keeps hr rfl rfl id
  · exact .refl s

/-! ### The operations that release and add -/

theorem admissionRelease_samePool (p : Port) (r : RecordNo) (s : State) :
    SamePool (s.release r) (s.admissionRelease p r) := ⟨rfl, rfl, rfl⟩

/-- What an arrival does to the pool: nothing, an addition, or a release and an addition. -/
theorem arrive_samePool (d : DequeNo) (r : RecordNo) (e : Insertion) (s : State) :
    (s.arrive d r e).2 = s ∨
      (r ∉ (s.deque d).entries ∧ SamePool (s.addRef r) (s.arrive d r e).2 ∧
        (s.arrive d r e).2.deques = (s.setDeque d { s.deque d with entries := place e r (s.deque d).entries }).deques) ∨
      ∃ v rest, r ∉ (s.deque d).entries ∧ (s.deque d).entries.Perm (v :: rest) ∧
        SamePool ((s.release v).addRef r) (s.arrive d r e).2 ∧
        (s.arrive d r e).2.deques = (s.setDeque d { s.deque d with entries := place e r rest }).deques := by
  rcases arrive_cases d r e s with h | ⟨-, hr, ⟨-, h⟩ | ⟨v, rest, hp, h⟩⟩
  · exact .inl h
  · refine .inr (.inl ⟨hr, ?_, ?_⟩)
    · have hb : SamePool (s.addRef r)
          ((s.setDeque d { s.deque d with entries := place e r (s.deque d).entries }).addRef r) :=
        SamePool.addRef (s := s) (t := s.setDeque d _) ⟨rfl, rfl, rfl⟩ r
      rw [h]
      split
      · exact hb.trans ⟨by simp, by simp, by simp⟩
      · exact hb
    · rw [h]
      split <;> simp
  · refine .inr (.inr ⟨v, rest, hr, shedEntry_perm hp, ?_, ?_⟩)
    · rw [h]
      exact ((SamePool.mk (by simp) (by simp) (by simp)).release v).addRef r
    · rw [h]
      simp [State.shedInto, State.setDeque, State.deque]

theorem arrive_keeps (d : DequeNo) (r : RecordNo) (e : Insertion) (s : State) : PoolKeeps s (s.arrive d r e).2 := by
  rcases arrive_samePool d r e s with h | ⟨-, h, -⟩ | ⟨v, rest, -, -, h, -⟩
  · rw [h]; exact .refl s
  · exact (addRef_keeps r s).trans h.keeps
  · exact ((release_keeps v s).trans (addRef_keeps r _)).trans h.keeps

/-- What a take does to the pool: nothing, unless the head had expired. -/
theorem takeFrom_keeps (p : Port) (c : Choice) (s : State) : PoolKeeps s (s.takeFrom p c) := by
  simp only [State.takeFrom]
  split
  · exact .refl s
  · rename_i r rest hr
    unfold State.sendOrDrop
    split
    · refine (release_keeps r s).trans (SamePool.keeps ?_)
      refine ((SamePool.mk ?_ ?_ ?_).release r).trans ⟨rfl, rfl, rfl⟩ <;> simp
    · exact SamePool.keeps ⟨by simp, by simp, by simp⟩

theorem releaseStored_keeps (k : Claim) (s : State) : PoolKeeps s (s.releaseStored k) := by
  unfold State.releaseStored
  split
  · exact release_keeps ..
  · exact .refl s

theorem addStored_keeps (new : Option RecordNo) (s : State) : PoolKeeps s (s.addStored new) := by
  unfold State.addStored
  split
  · exact addRef_keeps ..
  · exact .refl s

theorem clearClaim_keeps (k : Claim) (s : State) : PoolKeeps s (s.clearClaim k) :=
  (releaseStored_keeps k s).trans (SamePool.keeps ⟨rfl, rfl, rfl⟩)

theorem updateReplyMemory_keeps (j : Job) (new : Option RecordNo) (s : State) :
    PoolKeeps s (s.updateReplyMemory j new) := by
  unfold State.updateReplyMemory
  split
  · split
    · exact ((releaseStored_keeps ..).trans (addStored_keeps ..)).trans (SamePool.keeps ⟨rfl, rfl, rfl⟩)
    · exact .refl s
  · exact .refl s

theorem dropNotice_samePool (r : RecordNo) (s : State) : SamePool (s.release r) (s.dropNotice r) :=
  SamePool.release (s := s) (t := { s with exc := { s.exc with building := none } }) ⟨rfl, rfl, rfl⟩ r

/-- The engine releases the order frame, if it holds one. -/
def State.releaseOrder (j : Job) (s : State) : State :=
  match j.orderFrame with
  | some r => s.release r
  | none => s

theorem finish_samePool (j : Job) (s : State) : SamePool (s.releaseOrder j) (s.finish j) := by
  change SamePool _ (if (State.deque { s.releaseOrder j with engine := .idle } intake).entries = [] then
    { s.releaseOrder j with engine := .idle } else State.raise (.engineTake []) { s.releaseOrder j with engine := .idle })
  split <;> exact ⟨rfl, rfl, rfl⟩

theorem releaseOrder_keeps (j : Job) (s : State) : PoolKeeps s (s.releaseOrder j) := by
  unfold State.releaseOrder
  split
  · exact release_keeps ..
  · exact .refl s

theorem finish_keeps (j : Job) (s : State) : PoolKeeps s (s.finish j) :=
  (releaseOrder_keeps j s).trans (finish_samePool j s).keeps

theorem releaseStep_keeps (j : Job) (new : Option RecordNo) (s : State) : PoolKeeps s (s.releaseStep j new) := by
  unfold State.releaseStep
  split
  · exact (release_keeps ..).trans (finish_keeps ..)
  · exact finish_keeps ..

end Sys2Proof.Machine
end

section
/-! SUPPORT. What every move does to the pool and to the receivers, in nine kinds; cells and receptions (tier 3). -/

namespace Sys2Proof.Machine

open Sys2Proof

/-! ## The kinds of change -/

/-- The counts of a reception are in range, and the record has the cells that they need (R56, R102, R109). -/
def Reception.fits (x : Reception) (cells : List CellNo) : Prop :=
  x.lineBytes ≤ 1028 ∧ x.window.length = min 4 x.lineBytes ∧ cells.length = cellsFor (x.lineBytes - 4)

/-- Port `p` has receiver `y` now; nothing else of receivers and links has changed. -/
structure ReceiverSet (p : Port) (y : Receiver) (s t : State) : Prop where
  receiver : (t.port p).receiver = y
  link : (t.port p).link = (s.port p).link
  others : ∀ q, q ≠ p → (t.port q).receiver = (s.port q).receiver ∧ (t.port q).link = (s.port q).link

/-- Receivers are the same; a link that leaves UP has an empty one (R105). -/
def ReceiversKept (s t : State) : Prop :=
  ∀ p, (t.port p).receiver = (s.port p).receiver ∧
    ((s.port p).link.isUp = true → (t.port p).link.isUp = true ∨ (s.port p).receiver.empty)

/-- What a move does to records, free queues and receivers; with `handed`, a hand-over. -/
inductive PoolMove (handed : Prop) (s t : State) : Prop
  | keeps (h : PoolKeeps s t) (hr : ReceiversKept s t)
  | receiver (p : Port) (y : Receiver) (h : SamePool s t) (hp : ReceiverSet p y s t) (he : (s.port p).receiver.empty)
      (hy : y.empty)
  | receive (p : Port) (x x' : Reception) (h : SamePool s t) (hx : (s.port p).receiver = .receiving x)
      (hp : ReceiverSet p (.receiving x') s t) (hr : x'.record = x.record) (hf : ∀ l, x.fits l → x'.fits l)
  | newCell (p : Port) (x x' : Reception) (f : ReceivingFrame) (c : CellNo) (rest : List CellNo)
      (hx : (s.port p).receiver = .receiving x) (hr : x'.record = x.record) (hf : s.record x.record = .receiving f)
      (hc : s.freeCells = c :: rest)
      (h : SamePool { s.setRecord x.record (.receiving { f with cells := f.cells ++ [c] }) with freeCells := rest } t)
      (hp : ReceiverSet p (.receiving x') s t) (hl : x.fits f.cells → x'.fits (f.cells ++ [c]))
  | beginFrame (p : Port) (r : RecordNo) (rest : List RecordNo) (hf : s.freeRecords = r :: rest)
      (he : (s.port p).receiver.empty) (hu : (s.port p).link.isUp = true ∨ (s.port p).lineWaits ≠ [])
      (h : SamePool { s.setRecord r (.receiving ⟨[], p, s.timebase⟩) with freeRecords := rest } t)
      (hp : ReceiverSet p (.receiving ⟨r, 0, false, []⟩) s t)
  | giveBack (p : Port) (x : Reception) (y : Receiver) (hx : (s.port p).receiver = .receiving x) (hy : y.empty)
      (h : SamePool (s.returnReceived x.record) t) (hp : ReceiverSet p y s t)
  | build (h : Header) (payload : List Byte) (r : RecordNo) (u : State) (hb : s.build h payload = some (r, u))
      (hu : SamePool u t) (hr : ReceiversKept s t) (hl : EngineLaw s → 8 + payload.length ≤ 1024)
  | clear (hc : t.freeCells = allCells) (hf : t.freeRecords = allRecords) (hr : ∀ r, t.record r = .free)
      (he : ∀ p, (t.port p).receiver.empty)
  | handOver (p : Port) (x : Reception) (f : ReceivingFrame) (h : HeldFrame) (ho : handed)
      (hx : (s.port p).receiver = .receiving x) (hf : s.record x.record = .receiving f)
      (ht : SamePool (s.setRecord x.record (.held h)) t) (hp : ReceiverSet p .idle s t) (hc : h.cells = f.cells)
      (hn : h.count = 1) (hl : h.length = x.lineBytes - 4) (hb : 12 ≤ x.lineBytes)

theorem receiversKept_of_ports {s t : State} (h : t.ports = s.ports) : ReceiversKept s t := by
  intro p
  rw [State.port, State.port, h]
  exact ⟨rfl, .inl⟩

theorem setPort_receiversKept {s u : State} {p : Port} {y : PortState} (hu : u.ports = s.ports)
    (hr : y.receiver = (s.port p).receiver)
    (hl : (s.port p).link.isUp = true → y.link.isUp = true ∨ (s.port p).receiver.empty) :
    ReceiversKept s (u.setPort p y) := by
  intro q
  have hq : u.port q = s.port q := by rw [State.port, State.port, hu]
  by_cases h : q = p
  · subst h
    rw [setPort_port_same]
    exact ⟨hr, hl⟩
  · rw [setPort_port_of_ne _ _ h, hq]
    exact ⟨rfl, .inl⟩

theorem setReceiver_set {s u : State} (hu : u.ports = s.ports) (p : Port) (y : Receiver) :
    ReceiverSet p y s (u.setReceiver p y) := by
  have hq (q : Port) : u.port q = s.port q := by rw [State.port, State.port, hu]
  refine ⟨?_, ?_, fun q hne => ?_⟩
  · simp [State.setReceiver]
  · simp [State.setReceiver, hq]
  · simp [State.setReceiver, updPort_port_of_ne _ _ hne, hq]

/-! ## Cells that a reception needs (R56) -/

theorem fits_fill {x : Reception} {b : Byte} (hw : x.window.length < 4) {l : List CellNo} (h : x.fits l) :
    ({ x with lineBytes := x.lineBytes + 1, window := x.window ++ [b] } : Reception).fits l := by
  obtain ⟨-, h2, h3⟩ := h
  have hn : x.lineBytes < 4 := by omega
  refine ⟨by simp only; omega, by simp only [List.length_append, List.length_singleton]; omega, ?_⟩
  rw [h3]
  have e1 : x.lineBytes - 4 = 0 := by omega
  have e2 : x.lineBytes + 1 - 4 = 0 := by omega
  simp only [e1, e2]

section
variable {x : Reception} {b o w0 w1 w2 : Byte} {tl : List Byte}

theorem fits_pushed (hn : x.lineBytes + 1 ≠ overlengthCount) (hw : x.window = o :: w0 :: w1 :: w2 :: tl) {l l' : List CellNo}
    (h : x.fits l) (hl : l.length = cellsFor (x.lineBytes - 4) → 4 ≤ x.lineBytes →
      l'.length = cellsFor (x.lineBytes + 1 - 4)) :
    ({ x with lineBytes := x.lineBytes + 1, window := [w0, w1, w2, b] } : Reception).fits l' := by
  obtain ⟨h1, h2, h3⟩ := h
  simp only [overlengthCount] at hn
  simp only [hw, List.length_cons] at h2
  have h4 : 4 ≤ x.lineBytes := by omega
  refine ⟨by simp only; omega, by simp only [List.length_cons, List.length_nil]; omega, hl h3 h4⟩

theorem fits_stored (hn : x.lineBytes + 1 ≠ overlengthCount) (hw : x.window = o :: w0 :: w1 :: w2 :: tl)
    (hb : (x.lineBytes + 1 - 5) % 128 ≠ 0) {l : List CellNo} (h : x.fits l) :
    ({ x with lineBytes := x.lineBytes + 1, window := [w0, w1, w2, b] } : Reception).fits l :=
  fits_pushed hn hw h fun h3 h4 => by rw [h3]; simp only [cellsFor]; omega

theorem fits_newCell (hn : x.lineBytes + 1 ≠ overlengthCount) (hw : x.window = o :: w0 :: w1 :: w2 :: tl)
    (hb : (x.lineBytes + 1 - 5) % 128 = 0) {l : List CellNo} {c : CellNo} (h : x.fits l) :
    ({ x with lineBytes := x.lineBytes + 1, window := [w0, w1, w2, b] } : Reception).fits (l ++ [c]) :=
  fits_pushed hn hw h fun h3 h4 => by
    rw [List.length_append, h3]
    simp only [cellsFor, List.length_singleton]
    omega

end

/-! ## Lengths of what is built (R126, R176) -/

theorem result_bytes_length (x : Result) : x.bytes.length = 4 + x.data.length := by
  simp [Result.bytes]
  omega

theorem results_bytes_length (rs : List Result) :
    (rs.flatMap Result.bytes).length = 4 * rs.length + (rs.map (fun r => r.data.length)).sum := by
  induction rs with
  | nil => rfl
  | cons r rs ih =>
    simp only [List.flatMap_cons, List.length_append, ih, result_bytes_length, List.length_cons, List.map_cons,
      List.sum_cons]
    omega

theorem notice_room {rs : List ExceptionRecord} (h : rs.length ≤ 4) : 8 + (noticePayload rs).length ≤ 1024 := by
  simp only [noticePayload, List.length_cons, records_bytes_length]
  omega

/-- A reply that the engine's list allows fits in a frame (R126). -/
theorem reply_room {s : State} {j : Job} {status : FrameStatus} {next : ReplyStep}
    (he : s.engine = .replying j status next) (h : EngineLaw s) : 8 + (replyPayload status j.results).length ≤ 1024 := by
  simp only [EngineLaw, he] at h
  simp only [replyPayload, List.length_cons, results_bytes_length]
  by_cases hs : status = .executed
  · rw [if_pos hs] at h
    obtain ⟨-, h2, h3, h4⟩ := h
    simp only [Job.dataBytes] at h3
    simp only [Job.fixedParts, replyRoom] at h4
    omega
  · rw [if_neg hs] at h
    simp [h]

/-! ## Every move is of one of the kinds -/

theorem storeByte_samePool (r : RecordNo) (i : Nat) (b : Byte) (s : State) : SamePool s (s.storeByte r i b) :=
  ⟨by simp, by simp, by simp⟩

theorem afterReset_empty (x : Receiver) : x.afterReset.empty := by
  cases x <;> exact fun y h => nomatch h

theorem FramesReset.poolMove {s t u : State} (h : FramesReset s t) (hr : u.records = t.records)
    (hc : u.freeCells = t.freeCells) (hf : u.freeRecords = t.freeRecords) (hp : u.ports = t.ports) :
    PoolMove False s u := by
  refine .clear (hc.trans h.freeCells) (hf.trans h.freeRecords) (fun r => ?_) fun p => ?_
  · rw [State.record, hr]
    exact h.record r
  · obtain ⟨o, m, ho⟩ := h.port p
    rw [State.port, hp]
    rw [State.port] at ho
    rw [ho]
    exact afterReset_empty _

theorem move_poolMove {s t : State} (h : Move s t) : PoolMove False s t := by
  cases h with
  | link p l hr hu =>
    refine .keeps (SamePool.keeps ⟨rfl, rfl, rfl⟩) (setPort_receiversKept rfl rfl fun hup => ?_)
    cases hl : l.isUp with
    | true => exact .inl rfl
    | false => exact .inr (hu hup hl).2.1
  | portAside p y hl hr ht ha hw =>
    exact .keeps (SamePool.keeps ⟨rfl, rfl, rfl⟩) (setPort_receiversKept rfl hr fun hup => .inl (by rwa [hl]))
  | lineWaits p w hw =>
    exact .keeps (SamePool.keeps ⟨rfl, rfl, rfl⟩) (setPort_receiversKept rfl rfl .inl)
  | beginFrame p r rest hf he hu => exact .beginFrame p r rest hf he hu ⟨rfl, rfl, rfl⟩ (setReceiver_set (by simp) ..)
  | giveBack p x y hx hy => exact .giveBack p x y hx hy ⟨rfl, rfl, rfl⟩ (setReceiver_set (by simp) ..)
  | emptyReceiver p y he hy => exact .receiver p y ⟨rfl, rfl, rfl⟩ (setReceiver_set rfl ..) he hy
  | markDamage p x hx => exact .receive p x _ ⟨rfl, rfl, rfl⟩ hx (setReceiver_set rfl ..) rfl fun _ h => h
  | fillWindow p x b hx hw =>
    exact .receive p x _ ⟨rfl, rfl, rfl⟩ hx (setReceiver_set rfl ..) rfl fun _ h => fits_fill hw h
  | storeByte p x b o w0 w1 w2 tl hx hn hw hb =>
    exact .receive p x _ ⟨by simp, by simp, by simp⟩ hx (setReceiver_set (by simp) ..) rfl fun _ h =>
      fits_stored hn hw hb h
  | storeInNewCell p x b o w0 w1 w2 tl t hx hn hw hb ht =>
    obtain ⟨c, rest, f, hc, hf, -, rfl⟩ := takeCell_granted ht
    refine .newCell p x { x with lineBytes := x.lineBytes + 1, window := [w0, w1, w2, b] } f c rest hx rfl hf hc
      ((storeByte_samePool x.record (x.lineBytes + 1 - 5) o _).trans ⟨rfl, rfl, rfl⟩) (setReceiver_set (by simp) ..)
      fun h => fits_newCell hn hw hb h
  | admission p a b ha hf hl =>
    exact .keeps (SamePool.keeps ⟨rfl, rfl, rfl⟩) (setPort_receiversKept rfl rfl .inl)
  | admissionRelease p a ha =>
    exact .keeps ((release_keeps ..).trans (admissionRelease_samePool ..).keeps)
      (setPort_receiversKept (u := s.release a.frame) (by simp) (by simp [State.port]) (by simp [State.port]; exact .inl))
  | hopRule r rule => exact .keeps (applyHopRule_keeps ..) (receiversKept_of_ports (by simp))
  | arrive d r e hr => exact .keeps (arrive_keeps ..) (receiversKept_of_ports (by simp))
  | takeFrom p c ht hu =>
    refine .keeps (takeFrom_keeps ..) ?_
    rcases takeFrom_ports p c s with h | ⟨m, x, h⟩
    · exact receiversKept_of_ports h
    · intro q
      have := setPort_receiversKept (s := s) (u := s) (p := p)
        (y := { s.port p with markers := m, transmitter := x }) rfl rfl .inl q
      rwa [State.port, ← h] at this
  | stopSending p r d unread ht =>
    exact .keeps ((release_keeps ..).trans (SamePool.keeps ⟨rfl, rfl, rfl⟩))
      (setPort_receiversKept (u := s.release r) (by simp) (by simp [State.port]) (by simp [State.port]; exact .inl))
  | readOn p r d unread rest ht hs =>
    exact .keeps (SamePool.keeps ⟨rfl, rfl, rfl⟩) (setPort_receiversKept rfl rfl .inl)
  | drain d target n r rest x hs he hx =>
    exact .keeps ((SamePool.keeps (s := s) (t := s.setDeque d { s.deque d with entries := rest, state := x }) ⟨rfl, rfl, rfl⟩).trans (release_keeps ..))
      (receiversKept_of_ports (by simp))
  | clearClaim k hk => exact .keeps (clearClaim_keeps ..) (receiversKept_of_ports (by simp))
  | replyMemory j new hn => exact .keeps (updateReplyMemory_keeps ..) (receiversKept_of_ports (by simp))
  | dropNotice n hb =>
    exact .keeps ((release_keeps ..).trans (dropNotice_samePool ..).keeps) (receiversKept_of_ports (by simp))
  | buildNotice h rs r t dest seqs hb hl ht =>
    refine .build h _ r t ht ⟨rfl, rfl, rfl⟩ (receiversKept_of_ports ?_) fun _ => notice_room hl
    obtain ⟨rest, -, -, rfl⟩ := build_granted ht
    rfl
  | buildReply j status h r t he ht =>
    refine .build h _ r t ht ⟨rfl, rfl, rfl⟩ (receiversKept_of_ports ?_) (reply_room he)
    obtain ⟨rest, -, -, rfl⟩ := build_granted ht
    rfl
  | releaseStep j status next he => exact .keeps (releaseStep_keeps ..) (receiversKept_of_ports (by simp))
  | resetTraffic e f ho hr hl => exact (resetTraffic_framesReset s).poolMove (by dsimp only) (by dsimp only) (by dsimp only) (by dsimp only)
  | resetFull e f ho hr hl => exact (resetFull_framesReset s).poolMove (by dsimp only) (by dsimp only) (by dsimp only) (by dsimp only)
  | hardReset straps =>
    have hr : ∀ r, (afterHardReset straps (strapAddress straps) s.freeDraws s.pending).record r = .free :=
      afterHardReset_record _ _ _ _
    have hp : ∀ p, (afterHardReset straps (strapAddress straps) s.freeDraws s.pending).port p = resetPort :=
      afterHardReset_port _ _ _ _
    exact .clear (by dsimp only [State.reset]) (by dsimp only [State.reset]) hr fun p => (hp p).symm ▸ not_receiving_idle
  | _ => exact .keeps (SamePool.keeps ⟨by simp, by simp, by simp⟩) (receiversKept_of_ports (by simp))

theorem handOver_poolMove {s t : State} (h : HandOver s t) : PoolMove True s t := by
  obtain ⟨p, x, f, h, hr, hf, ha, hg⟩ := h
  have hb : 12 ≤ x.lineBytes := by
    by_contra hlt
    rw [endFault, if_pos (Nat.not_le.mp hlt)] at hg
    cases hg
  refine .handOver p x f ⟨f.cells, x.lineBytes - 4, .port f.port, h, f.stamp, 1⟩ trivial hr hf ⟨rfl, rfl, rfl⟩ ?_ rfl rfl rfl hb
  refine ⟨?_, ?_, fun q hq => ?_⟩
  · simp [State.handOver, State.setReceiver, State.setAdmission]
  · simp [State.handOver, State.setReceiver, State.setAdmission, State.port]
  · simp only [State.handOver, State.setReceiver, State.setAdmission, updPort_port_of_ne _ _ hq]
    exact ⟨rfl, rfl⟩

/-! ## Cells in one place (R51, R53) -/

theorem listedCells_of_free {s : State} (h : ∀ r, s.record r = .free) : s.listedCells = [] := by
  rw [State.listedCells, List.flatMap_eq_nil_iff]
  intro x hx
  obtain ⟨i, hi, rfl⟩ := List.mem_iff_getElem.mp hx
  have hr : s.records.toList[i] = .free := h ⟨i, by simpa using hi⟩
  rw [hr]
  rfl

/-- The pool after every kind of reset (R67). -/
theorem poolLaw_of_clear {s : State} (hc : s.freeCells = allCells) (hf : s.freeRecords = allRecords)
    (hr : ∀ r, s.record r = .free) : PoolLaw s := by
  refine ⟨?_, ?_, fun r => ?_⟩
  · rw [listedCells_of_free hr, List.append_nil, hc]
  · rw [hf]
    exact List.nodup_finRange _
  · rw [hf]
    exact iff_of_true (List.mem_finRange r) (hr r)

theorem build_poolLaw {h : Header} {payload : List Byte} {r : RecordNo} {s u : State} (hs : PoolLaw s)
    (hb : s.build h payload = some (r, u)) : PoolLaw u := by
  obtain ⟨rest, hf, -, rfl⟩ := build_granted hb
  refine poolLaw_taken hs (r := r) (x := .held _) rfl hf (by simp) ?_
  exact List.perm_append_comm.trans (.of_eq (List.take_append_drop ..))

theorem returnReceived_poolLaw {s : State} (hs : PoolLaw s) (r : RecordNo) : PoolLaw (s.returnReceived r) := by
  unfold State.returnReceived
  split
  · rename_i f hf
    have := freeFrame_poolLaw hs (r := r) (by rw [hf]; simp)
    rwa [hf] at this
  · exact hs

theorem poolMove_poolLaw {handed : Prop} {s t : State} (hs : PoolLaw s) (h : PoolMove handed s t) : PoolLaw t := by
  cases h with
  | keeps h hr => exact h.pool hs
  | receiver p y h hp he hy => exact poolLaw_of_samePool h hs
  | receive p x x' h hx hp hr hf => exact poolLaw_of_samePool h hs
  | newCell p x x' f c rest hx hr hf hc h hp hl =>
    refine poolLaw_of_samePool h (poolLaw_rewritten hs (r := x.record) (x := .receiving _) rfl (by rw [hf]; simp)
      (by simp) ?_ rfl)
    rw [hf, hc]
    change (rest ++ (f.cells ++ [c])).Perm (c :: (rest ++ f.cells))
    rw [← List.append_assoc]
    exact List.perm_append_singleton ..
  | beginFrame p r rest hf he hu h hp =>
    exact poolLaw_of_samePool h (poolLaw_taken hs (r := r) (x := .receiving _) rfl hf (by simp) (by simp [FrameRecord.cells]))
  | giveBack p x y hx hy h hp => exact poolLaw_of_samePool h (returnReceived_poolLaw hs x.record)
  | build h payload r u hb hu hr hl => exact poolLaw_of_samePool hu (build_poolLaw hs hb)
  | clear hc hf hr he => exact poolLaw_of_clear hc hf hr
  | handOver p x f h ho hx hf ht hp hc hn hl hb =>
    refine poolLaw_of_samePool ht (poolLaw_rewritten hs (r := x.record) (x := .held h) rfl (by rw [hf]; simp) (by simp) ?_
      rfl)
    rw [hf]
    simp [FrameRecord.cells, hc]

/-! ## Receptions and their records (R55, R109) -/

/-- What port `p` receives: its receiver and its RECEIVING record hold the same frame. -/
structure PortReceives (s : State) (p : Port) : Prop where
  up : ∀ x, (s.port p).receiver = .receiving x → (s.port p).link.isUp = true
  record : ∀ x, (s.port p).receiver = .receiving x → ∃ f, s.record x.record = .receiving f ∧ f.port = p ∧ x.fits f.cells
  owner : ∀ r f, s.record r = .receiving f → f.port = p → ∃ x, (s.port p).receiver = .receiving x ∧ x.record = r

theorem receiverLaw_iff {s : State} :
    ReceiverLaw s ↔ ∀ p x, (s.port p).receiver = .receiving x →
      (s.port p).link.isUp = true ∧ ∃ f, s.record x.record = .receiving f ∧ f.port = p ∧ x.fits f.cells := by
  refine forall_congr' fun p => ?_
  cases (s.port p).receiver with
  | idle => simp
  | discarding => simp
  | receiving x =>
    simp only [Receiver.receiving.injEq, forall_eq']
    cases hf : s.record x.record with
    | free => simp
    | held h => simp
    | receiving f =>
      simp only [FrameRecord.receiving.injEq, exists_eq_left', Reception.fits]
      tauto

theorem ownerLaw_iff {s : State} :
    OwnerLaw s ↔ ∀ r f, s.record r = .receiving f → ∃ x, (s.port f.port).receiver = .receiving x ∧ x.record = r := by
  refine forall_congr' fun r => ?_
  cases s.record r with
  | free => simp
  | held h => simp
  | receiving f => cases hx : (s.port f.port).receiver <;> simp [hx]

theorem portReceives_iff {s : State} : (ReceiverLaw s ∧ OwnerLaw s) ↔ ∀ p, PortReceives s p := by
  rw [receiverLaw_iff, ownerLaw_iff]
  constructor
  · rintro ⟨h1, h2⟩ p
    exact ⟨fun x hx => (h1 p x hx).1, fun x hx => (h1 p x hx).2, fun r f hf hp => hp ▸ h2 r f hf⟩
  · intro h
    exact ⟨fun p x hx => ⟨(h p).up x hx, (h p).record x hx⟩, fun r f hf => (h f.port).owner r f hf rfl⟩

/-- A port that receives nothing, and that no RECEIVING record names. -/
theorem portReceives_of_empty {s : State} {p : Port} (he : (s.port p).receiver.empty)
    (hr : ∀ r f, s.record r = .receiving f → f.port ≠ p) : PortReceives s p :=
  ⟨fun x hx => absurd hx (he x), fun x hx => absurd hx (he x), fun r f hf hp => absurd hp (hr r f hf)⟩

theorem PortReceives.no_record {s : State} {p : Port} (h : PortReceives s p) (he : (s.port p).receiver.empty)
    {r : RecordNo} {f : ReceivingFrame} (hf : s.record r = .receiving f) : f.port ≠ p := fun hp => by
  obtain ⟨x, hx, -⟩ := h.owner r f hf hp
  exact he x hx

/-- What port `p` receives does not change with records of other ports. -/
theorem PortReceives.congr {s t : State} {p : Port} (h : PortReceives s p)
    (hr : (t.port p).receiver = (s.port p).receiver)
    (hu : (s.port p).link.isUp = true → (t.port p).link.isUp = true ∨ (s.port p).receiver.empty)
    (hf : ∀ r f, f.port = p → (t.record r = .receiving f ↔ s.record r = .receiving f)) : PortReceives t p where
  up x hx := by
    rw [hr] at hx
    exact (hu (h.up x hx)).elim id fun he => absurd hx (he x)
  record x hx := by
    rw [hr] at hx
    obtain ⟨f, hfr, hp, hfit⟩ := h.record x hx
    exact ⟨f, (hf _ f hp).mpr hfr, hp, hfit⟩
  owner r f hfr hp := by
    rw [hr]
    exact h.owner r f ((hf r f hp).mp hfr) hp

/-- A change at port `p` and at one record, which no other port has before or after. -/
theorem portReceives_at {s t : State} {p : Port} {y : Receiver} {r : RecordNo} {z : FrameRecord}
    (hs : ∀ q, PortReceives s q) (hp : ReceiverSet p y s t) (ht : ∀ q, t.record q = if q = r then z else s.record q)
    (h0 : ∀ f, s.record r = .receiving f → f.port = p) (h1 : ∀ f, z = .receiving f → f.port = p) (hc : PortReceives t p)
    (q : Port) : PortReceives t q := by
  by_cases hq : q = p
  · exact hq ▸ hc
  · obtain ⟨e1, e2⟩ := hp.others q hq
    refine (hs q).congr e1 (fun hu => .inl (by rwa [e2])) fun k f hf => ?_
    rw [ht k]
    split
    · rename_i hk
      rw [hk]
      exact iff_of_false (fun hz => hq (hf ▸ h1 f hz)) (fun hz => hq (hf ▸ h0 f hz))
    · rfl

theorem returnReceived_of {s : State} {r : RecordNo} {f : ReceivingFrame} (hf : s.record r = .receiving f) :
    s.returnReceived r = s.freeFrame r f.cells := by
  simp [State.returnReceived, hf]

theorem build_record {h : Header} {payload : List Byte} {r : RecordNo} {s u : State} (hs : PoolLaw s)
    (hb : s.build h payload = some (r, u)) : s.record r = .free ∧ ∃ x : HeldFrame, x.length = 8 + payload.length ∧
      x.cells.length = cellsFor x.length ∧ x.count = 1 ∧ ∀ q, u.record q = if q = r then .held x else s.record q := by
  obtain ⟨rest, hf, hc, rfl⟩ := build_granted hb
  refine ⟨(hs.2.2 r).mp (by rw [hf]; exact List.mem_cons_self), _, rfl, ?_, rfl, fun q => setRecord_record ..⟩
  simpa using hc

/-- A port has no other RECEIVING record than that of its receiver. -/
theorem PortReceives.only {s : State} {p : Port} (h : PortReceives s p) {x : Reception}
    (hx : (s.port p).receiver = .receiving x) {k : RecordNo} {g : ReceivingFrame} (hg : s.record k = .receiving g)
    (hp : g.port = p) : k = x.record := by
  obtain ⟨x', hx', rfl⟩ := h.owner k g hg hp
  rw [hx] at hx'
  cases hx'
  rfl

/-- The reception of port `p` goes on with the same record. -/
theorem portReceives_of_one {s t : State} {p : Port} {x x' : Reception} {f : ReceivingFrame}
    (hs : ∀ q, PortReceives s q) (hx : (s.port p).receiver = .receiving x) (hp : ReceiverSet p (.receiving x') s t)
    (hr : x'.record = x.record) (ht : ∀ k, t.record k = if k = x.record then .receiving f else s.record k)
    (hf : f.port = p) (hfit : x'.fits f.cells) : PortReceives t p := by
  refine ⟨fun y _ => hp.link ▸ (hs p).up x hx, fun y hy => ?_, fun k g hg hgp => ⟨x', hp.receiver, ?_⟩⟩
  · rw [hp.receiver] at hy
    cases hy
    exact ⟨f, by rw [ht, if_pos hr], hf, hfit⟩
  · rw [ht] at hg
    split at hg
    · exact hr.trans (‹k = x.record›).symm
    · exact hr.trans ((hs p).only hx hg hgp).symm

/-- The reception of port `p` is over, and its record with it. -/
theorem portReceives_of_gone {s t : State} {p : Port} {x : Reception} {y : Receiver} {z : FrameRecord}
    (hs : ∀ q, PortReceives s q) (hx : (s.port p).receiver = .receiving x) (hp : ReceiverSet p y s t) (hy : y.empty)
    (ht : ∀ k, t.record k = if k = x.record then z else s.record k) (hz : ∀ g, z ≠ .receiving g) : PortReceives t p := by
  refine portReceives_of_empty (hp.receiver ▸ hy) fun k g hg hgp => ?_
  rw [ht] at hg
  split at hg
  · exact hz g hg
  · exact absurd ((hs p).only hx hg hgp) ‹_›

theorem poolMove_receives {s t : State} (hs : PoolLaw s) (hr : ∀ p, PortReceives s p) (hw : WaitingLaw s)
    {handed : Prop} (h : PoolMove handed s t) (q : Port) : PortReceives t q := by
  cases h with
  | keeps h hk => exact (hr q).congr (hk q).1 (hk q).2 fun r f _ => h.receiving r f
  | receiver p y h hp he hy =>
    by_cases hq : q = p
    · subst hq
      refine portReceives_of_empty (hp.receiver ▸ hy) fun r f hf => (hr q).no_record he (r := r) ?_
      rwa [← h.record]
    · obtain ⟨e1, e2⟩ := hp.others q hq
      exact (hr q).congr e1 (fun hu => .inl (by rwa [e2])) fun r f _ => by rw [h.record]
  | receive p x x' h hx hp hr' hf =>
    obtain ⟨f, hfr, hfp, hfit⟩ := (hr p).record x hx
    have ht (k : RecordNo) : t.record k = if k = x.record then .receiving f else s.record k := by
      rw [h.record]
      split
      · rename_i hk; rw [hk, hfr]
      · rfl
    refine portReceives_at hr hp ht (fun g hg => ?_) (fun g hg => ?_) ?_ q
    · rw [hfr] at hg; cases hg; exact hfp
    · cases hg; exact hfp
    · exact portReceives_of_one hr hx hp hr' ht (hfp) (hf _ hfit)
  | newCell p x x' f c rest hx hr' hf hc h hp hl =>
    obtain ⟨g, hg, hfp, hfit⟩ := (hr p).record x hx
    obtain rfl : f = g := by rw [hf] at hg; cases hg; rfl
    have ht (k : RecordNo) : t.record k =
        if k = x.record then .receiving { f with cells := f.cells ++ [c] } else s.record k := by
      rw [h.record]
      exact setRecord_record ..
    refine portReceives_at hr hp ht (fun g hg => ?_) (fun g hg => ?_) ?_ q
    · rw [hf] at hg; cases hg; exact hfp
    · cases hg; exact hfp
    · exact portReceives_of_one hr hx hp hr' ht hfp (hl hfit)
  | beginFrame p r rest hf he hu h hp =>
    have hfree : s.record r = .free := (hs.2.2 r).mp (by rw [hf]; exact List.mem_cons_self)
    have ht (k : RecordNo) : t.record k = if k = r then .receiving ⟨[], p, s.timebase⟩ else s.record k := by
      rw [h.record]
      exact setRecord_record ..
    refine portReceives_at hr hp ht (fun g hg => ?_) (fun g hg => ?_) ?_ q
    · rw [hfree] at hg; cases hg
    · cases hg; rfl
    · refine ⟨fun x _ => ?_, fun x hx => ?_, fun k g hg hgp => ⟨_, hp.receiver, ?_⟩⟩
      · rw [hp.link]
        exact hu.elim id (hw p)
      · rw [hp.receiver] at hx
        cases hx
        exact ⟨_, by rw [ht, if_pos rfl], rfl, Nat.zero_le _, rfl, by simp [cellsFor]⟩
      · rw [ht] at hg
        split at hg
        · exact (‹k = r›).symm
        · exact absurd hgp ((hr p).no_record he hg)
  | giveBack p x y hx hy h hp =>
    obtain ⟨f, hf, hfp, -⟩ := (hr p).record x hx
    have ht (k : RecordNo) : t.record k = if k = x.record then .free else s.record k := by
      rw [h.record, returnReceived_of hf]
      exact freeFrame_record ..
    refine portReceives_at hr hp ht (fun g hg => ?_) (fun g hg => nomatch hg) ?_ q
    · rw [hf] at hg; cases hg; exact hfp
    · exact portReceives_of_gone hr hx hp hy ht fun g hg => nomatch hg
  | build h payload r u hb hu hk hl =>
    obtain ⟨hfree, x, -, -, -, hx⟩ := build_record hs hb
    refine (hr q).congr (hk q).1 (hk q).2 fun k f _ => ?_
    rw [hu.record, hx]
    split
    · rename_i hk; rw [hk, hfree]; simp
    · rfl
  | clear hc hf hrec he => exact portReceives_of_empty (he q) fun r f hf => by rw [hrec] at hf; cases hf
  | handOver p x f h ho hx hf ht hp hc hn hl hb =>
    have ht' (k : RecordNo) : t.record k = if k = x.record then .held h else s.record k := by
      rw [ht.record]
      exact setRecord_record ..
    refine portReceives_at hr hp ht' (fun g hg => ?_) (fun g hg => nomatch hg) ?_ q
    · obtain ⟨f', hf', hfp, -⟩ := (hr p).record x hx
      rw [hf'] at hg; cases hg; exact hfp
    · exact portReceives_of_gone hr hx hp not_receiving_idle ht' fun g hg => nomatch hg

/-- Settles O57: each kind of change keeps the pool and what each port receives; the waiting law comes along. -/
theorem poolLawKept : Obligations.PoolLawKept := by
  unfold Obligations.PoolLawKept
  intro s t hs hr ho hw h
  have keeps : ∀ {handed : Prop} u v, (PoolLaw u ∧ (∀ p, PortReceives u p) ∧ WaitingLaw u) → PoolMove handed u v →
      (∀ q, PortKeeps (u.port q) (v.port q)) → (PoolLaw v ∧ (∀ p, PortReceives v p) ∧ WaitingLaw v) :=
    fun _ _ ⟨h1, h2, h3⟩ hm hk =>
      ⟨poolMove_poolLaw h1 hm, poolMove_receives h1 h2 h3 hm, fun p => (hk p).waiting (h3 p)⟩
  obtain ⟨h1, h2, -⟩ := (step_reaches h).keeps (fun u v hu hm => keeps u v hu (move_poolMove hm) (move_portKeeps hm))
    (fun u v hu hm => keeps u v hu (handOver_poolMove hm) (handOver_portKeeps hm))
    ⟨hs, portReceives_iff.mp ⟨hr, ho⟩, hw⟩
  exact ⟨h1, portReceives_iff.mpr h2⟩

end Sys2Proof.Machine
end

section
/-! SUPPORT. The reference counts: what each move does to the count of a record and to its holders (tier 3). -/

namespace Sys2Proof.Machine

open Sys2Proof

/-! ## Counts -/

/-- The count of a record; 0 for one that is not HELD. -/
def FrameRecord.count : FrameRecord → Nat
  | .held h => h.count
  | _ => 0

def State.count (s : State) (r : RecordNo) : Nat := (s.record r).count

/-- Every count is the number of the holders. -/
def Balanced (s : State) : Prop := ∀ r, s.count r = s.refs r

theorem countLaw_iff {s : State} : CountLaw s ↔ Counted s ∧ Balanced s := by
  have key : ∀ r, (match s.record r with
      | .held h => 1 ≤ h.count ∧ h.count = s.refs r
      | _ => s.refs r = 0) ↔ (∀ h, s.record r = .held h → 1 ≤ h.count) ∧ s.count r = s.refs r := by
    intro r
    rw [State.count]
    cases s.record r with
    | free => simp [FrameRecord.count, eq_comm]
    | receiving f => simp [FrameRecord.count, eq_comm]
    | held h => simp [FrameRecord.count]
  exact (forall_congr' key).trans forall_and

theorem SamePool.count {s t : State} (h : SamePool s t) (r : RecordNo) : t.count r = s.count r := by
  rw [State.count, State.count, h.record]

/-- A record with a reference is HELD. -/
theorem held_of_count {s : State} {r : RecordNo} (h : s.count r ≠ 0) : ∃ x, s.record r = .held x := by
  rw [State.count] at h
  cases hr : s.record r with
  | free => rw [hr] at h; exact absurd rfl h
  | receiving f => rw [hr] at h; exact absurd rfl h
  | held x => exact ⟨x, rfl⟩

theorem one_eq {p : Prop} [Decidable p] {q : Prop} [Decidable q] (h : p ↔ q) : one p = one q := by
  simp only [one, h]

theorem one_neg {p : Prop} [Decidable p] (h : ¬ p) : one p = 0 := if_neg h

theorem release_count (r q : RecordNo) (s : State) : (s.release r).count q = s.count q - one (q = r) := by
  by_cases hq : q = r
  · subst hq
    rw [one_pos rfl, State.count, State.count]
    cases hr : s.record q with
    | free => simp [State.release, hr, FrameRecord.count]
    | receiving f => simp [State.release, hr, FrameRecord.count]
    | held h =>
      obtain hc | hc := Nat.lt_or_ge 1 h.count
      · rw [release_of_shared hr hc, setRecord_record, if_pos rfl]
        rfl
      · rw [release_of_last hr hc, freeFrame_record, if_pos rfl]
        simp only [FrameRecord.count]
        omega
  · rw [one_neg hq, State.count, State.count, release_record_of_ne hq]
    rfl

theorem addRef_count {r : RecordNo} {s : State} (h : s.count r ≠ 0) (q : RecordNo) :
    (s.addRef r).count q = s.count q + one (q = r) := by
  obtain ⟨x, hx⟩ := held_of_count h
  rw [addRef_of_held hx, State.count, State.count, setRecord_record]
  by_cases hq : q = r
  · rw [if_pos hq, one_pos hq, hq, hx]
    rfl
  · rw [if_neg hq, one_neg hq]
    rfl

/-! ## Holders -/

/-- 1 if the holder has the record. -/
def ref (x : Option RecordNo) (r : RecordNo) : Nat := one (x = some r)

/-- 1 if the record stands in the list. -/
def listed (l : List RecordNo) (r : RecordNo) : Nat := one (r ∈ l)

@[simp] theorem ref_none (r : RecordNo) : ref none r = 0 := one_neg (by simp)

theorem ref_some (x r : RecordNo) : ref (some x) r = one (r = x) := one_eq (by simp [eq_comm])

theorem listed_cons {r v : RecordNo} {l : List RecordNo} (h : v ∉ l) : listed (v :: l) r = one (r = v) + listed l r := by
  unfold listed
  by_cases hv : r = v
  · subst hv
    rw [one_pos List.mem_cons_self, one_pos rfl, one_neg h]
  · rw [one_neg hv, Nat.zero_add]
    exact one_eq (by simp [hv])

theorem listed_perm {r : RecordNo} {l l' : List RecordNo} (h : l.Perm l') : listed l r = listed l' r := one_eq h.mem_iff

theorem listed_place {r v : RecordNo} {l : List RecordNo} (h : v ∉ l) (e : Insertion) :
    listed (place e v l) r = one (r = v) + listed l r := (listed_perm (place_perm e v l)).trans (listed_cons h)

/-- The record that a transmitter sends. -/
def Transmitter.frame? : Transmitter → Option RecordNo
  | .idle => none
  | .sending f _ _ => some f

/-- The record that an admission unit admits. -/
def AdmissionUnit.frame? : AdmissionUnit → Option RecordNo
  | .idle => none
  | .admitting a => some a.frame

theorem one_holds (x : Transmitter) (r : RecordNo) : one (x.holds r) = ref x.frame? r := by
  cases x <;> exact one_eq (by simp [Transmitter.holds, Transmitter.frame?])

theorem one_admits (x : AdmissionUnit) (r : RecordNo) : one (x.holds r) = ref x.frame? r := by
  cases x <;> exact one_eq (by simp [AdmissionUnit.holds, AdmissionUnit.frame?])

/-- The references that a port holds. -/
def PortState.refs (r : RecordNo) (y : PortState) : Nat := ref y.transmitter.frame? r + ref y.admission.frame? r

def State.portsRefs (s : State) (r : RecordNo) : Nat := (s.port .E).refs r + (s.port .W).refs r + (s.port .B).refs r

/-- The notice in building's record. -/
def State.buildingFrame? (s : State) : Option RecordNo := s.exc.building.map (·.record)

/-- The reply in reply memory. -/
def State.storedFrame? (s : State) : Option RecordNo := s.claim.bind (·.replyMemory)

/-- The references of engine, notice in building and reply memory. -/
def State.sideRefs (s : State) (r : RecordNo) : Nat :=
  ref s.engine.orderFrame? r + ref s.engine.reply? r + ref s.buildingFrame? r + ref s.storedFrame? r

theorem refs_eq (s : State) (r : RecordNo) : s.refs r = s.dequeRefs r + s.portsRefs r + s.sideRefs r := by
  simp only [State.refs, State.portRefs, one_holds, one_admits]
  rw [State.portsRefs, State.sideRefs]
  change _ + ref s.engine.orderFrame? r + ref s.engine.reply? r + ref s.buildingFrame? r + ref s.storedFrame? r = _
  simp only [PortState.refs]
  omega

theorem dequeRefs_congr {s t : State} (h : t.deques = s.deques) (r : RecordNo) : t.dequeRefs r = s.dequeRefs r := by
  rw [State.dequeRefs, State.dequeRefs, h]

theorem portsRefs_congr {s t : State} (h : t.ports = s.ports) (r : RecordNo) : t.portsRefs r = s.portsRefs r := by
  simp only [State.portsRefs, State.port, h]

theorem sideRefs_congr {s t : State} (he : t.engine = s.engine)
    (hb : t.exc.building = s.exc.building) (hc : t.claim = s.claim) (r : RecordNo) : t.sideRefs r = s.sideRefs r := by
  simp only [State.sideRefs, State.buildingFrame?, State.storedFrame?, he, hb, hc]

theorem portsRefs_setPort (p : Port) (y : PortState) (s : State) (r : RecordNo) :
    (s.setPort p y).portsRefs r + (s.port p).refs r = s.portsRefs r + y.refs r := by
  cases p <;> simp only [State.portsRefs, State.port, State.setPort, PerPort.get, PerPort.set] <;> omega

/-- The references of a port that is written, when the rest of the state has the same ports. -/
theorem portsRefs_written {p : Port} {y : PortState} {s t : State} (h : t.ports = (s.setPort p y).ports) (r : RecordNo) :
    t.portsRefs r + (s.port p).refs r = s.portsRefs r + y.refs r := by
  rw [portsRefs_congr h]
  exact portsRefs_setPort p y s r

theorem dequeRefs_setDeque (d : DequeNo) (x : Deque) (s : State) (r : RecordNo) :
    (s.setDeque d x).dequeRefs r + listed (s.deque d).entries r = s.dequeRefs r + listed x.entries r := by
  have hd : d.val < s.deques.toList.length := by simp
  have hget : s.deque d = s.deques.toList[d.val] := by simp [State.deque]
  have hset : (s.setDeque d x).deques.toList = s.deques.toList.set d.val x := by
    rw [setDeque_deques, Vector.toList_set]
  have hl : s.deques.toList = s.deques.toList.take d.val ++ s.deque d :: s.deques.toList.drop (d.val + 1) := by
    rw [hget, List.cons_getElem_drop_succ, List.take_append_drop]
  rw [State.dequeRefs, State.dequeRefs, hset, List.set_eq_take_append_cons_drop, if_pos hd]
  nth_rewrite 3 [hl]
  simp only [List.countP_append, List.countP_cons, decide_eq_true_eq, listed, one]
  omega

/-- The references of a deque that is written, when the rest of the state has the same deques. -/
theorem dequeRefs_written {d : DequeNo} {x : Deque} {s t : State} (h : t.deques = (s.setDeque d x).deques) (r : RecordNo) :
    t.dequeRefs r + listed (s.deque d).entries r = s.dequeRefs r + listed x.entries r := by
  rw [dequeRefs_congr h]
  exact dequeRefs_setDeque d x s r

/-! ## Moves that keep pool and holders -/

theorem balanced_of {s t : State} (hs : Balanced s) (hc : ∀ r, t.count r = s.count r) (hd : ∀ r, t.dequeRefs r = s.dequeRefs r)
    (hp : ∀ r, t.portsRefs r = s.portsRefs r) (he : ∀ r, t.sideRefs r = s.sideRefs r) : Balanced t := by
  intro r
  have h := hs r
  rw [refs_eq] at h ⊢
  rw [hc, hd, hp, he]
  exact h

/-! ## Moves that take a reference along with its holder -/

theorem admissionRelease_balanced {s : State} (hs : Balanced s) {p : Port} {a : Admitting}
    (ha : (s.port p).admission = .admitting a) : Balanced (s.admissionRelease p a.frame) := by
  intro r
  have h := hs r
  have hc : (s.admissionRelease p a.frame).count r = s.count r - one (r = a.frame) :=
    ((admissionRelease_samePool ..).count r).trans (release_count ..)
  have hd : (s.admissionRelease p a.frame).dequeRefs r = s.dequeRefs r := dequeRefs_congr (by simp) r
  have he : (s.admissionRelease p a.frame).sideRefs r = s.sideRefs r := sideRefs_congr (by simp) (by simp) (by simp) r
  have hp := portsRefs_written (p := p) (y := { s.port p with admission := .idle }) (s := s)
    (t := s.admissionRelease p a.frame)
    (by simp [State.admissionRelease, State.setAdmission, State.updPort, State.setPort, State.port]) r
  simp only [PortState.refs, ha, AdmissionUnit.frame?, ref_some, ref_none] at hp
  rw [refs_eq] at h ⊢
  omega

theorem stopSending_balanced {s : State} (hs : Balanced s) {p : Port} {f : RecordNo} {d : DequeNo} {u : List CellNo}
    (ht : (s.port p).transmitter = .sending f d u) : Balanced ((s.release f).setTransmitter p .idle) := by
  intro r
  have h := hs r
  have hc : ((s.release f).setTransmitter p .idle).count r = s.count r - one (r = f) := release_count f r s
  have hd : ((s.release f).setTransmitter p .idle).dequeRefs r = s.dequeRefs r := dequeRefs_congr (by simp) r
  have he : ((s.release f).setTransmitter p .idle).sideRefs r = s.sideRefs r :=
    sideRefs_congr (by simp) (by simp) (by simp) r
  have hp := portsRefs_written (p := p) (y := { s.port p with transmitter := .idle }) (s := s)
    (t := (s.release f).setTransmitter p .idle)
    (by simp [State.setTransmitter, State.updPort, State.setPort, State.port]) r
  simp only [PortState.refs, ht, Transmitter.frame?, ref_some, ref_none] at hp
  rw [refs_eq] at h ⊢
  omega

theorem drain_balanced {s : State} (hs : Balanced s) {d : DequeNo} {f : RecordNo} {rest : List RecordNo} {x : DequeState}
    (hq : (s.deque d).entries = f :: rest) (hf : f ∉ rest) :
    Balanced ((s.setDeque d { s.deque d with entries := rest, state := x }).release f) := by
  intro r
  have h := hs r
  have hc : ((s.setDeque d { s.deque d with entries := rest, state := x }).release f).count r =
      s.count r - one (r = f) := release_count f r _
  have hd : ((s.setDeque d { s.deque d with entries := rest, state := x }).release f).dequeRefs r +
      listed (s.deque d).entries r = s.dequeRefs r + listed rest r := dequeRefs_written (release_deques ..) r
  have hp : ((s.setDeque d { s.deque d with entries := rest, state := x }).release f).portsRefs r = s.portsRefs r :=
    portsRefs_congr (by simp) r
  have he : ((s.setDeque d { s.deque d with entries := rest, state := x }).release f).sideRefs r = s.sideRefs r :=
    sideRefs_congr (by simp) (by simp) (by simp) r
  rw [hq, listed_cons hf] at hd
  rw [refs_eq] at h ⊢
  omega

theorem dropNotice_balanced {s : State} (hs : Balanced s) {n : Building} (hb : s.exc.building = some n) :
    Balanced (s.dropNotice n.record) := by
  intro r
  have h := hs r
  have hc : (s.dropNotice n.record).count r = s.count r - one (r = n.record) :=
    ((dropNotice_samePool ..).count r).trans (release_count ..)
  have hd : (s.dropNotice n.record).dequeRefs r = s.dequeRefs r := dequeRefs_congr (by simp) r
  have hp : (s.dropNotice n.record).portsRefs r = s.portsRefs r := portsRefs_congr (by simp) r
  have hn : (s.dropNotice n.record).exc.building = none := by simp [State.dropNotice]
  rw [refs_eq] at h ⊢
  simp only [State.sideRefs, State.buildingFrame?, State.storedFrame?, hb, hn, dropNotice_engine, dropNotice_claim,
    Option.map_some, Option.map_none, ref_some, ref_none] at h ⊢
  omega

theorem releaseStored_count (k : Claim) (s : State) (r : RecordNo) :
    (s.releaseStored k).count r = s.count r - ref k.replyMemory r := by
  unfold State.releaseStored
  split
  · rename_i f hf
    rw [release_count, hf, ref_some]
  · rename_i hf
    rw [hf, ref_none]
    rfl

theorem clearClaim_balanced {s : State} (hs : Balanced s) {k : Claim} (hk : s.claim = some k) :
    Balanced (s.clearClaim k) := by
  intro r
  have h := hs r
  have hc : (s.clearClaim k).count r = s.count r - ref k.replyMemory r :=
    (SamePool.count (s := s.releaseStored k) ⟨rfl, rfl, rfl⟩ r).trans (releaseStored_count ..)
  have hd : (s.clearClaim k).dequeRefs r = s.dequeRefs r := dequeRefs_congr (by simp) r
  have hp : (s.clearClaim k).portsRefs r = s.portsRefs r := portsRefs_congr (by simp) r
  have hb : (s.clearClaim k).exc.building = s.exc.building := by simp [State.clearClaim, State.syncTimer]
  rw [refs_eq] at h ⊢
  simp only [State.sideRefs, State.buildingFrame?, State.storedFrame?, hk, hb, clearClaim_engine, clearClaim_claim,
    Option.bind_some, Option.bind_none, ref_none] at h ⊢
  omega

/-- The old reply leaves reply memory and the new one enters it. -/
theorem exchangeStored_count {s : State} (hs : Balanced s) {k : Claim} (hk : s.claim = some k) {new : Option RecordNo}
    (hn : ∀ r, new = some r → s.engine.reply? = some r) (r : RecordNo) :
    ((s.releaseStored k).addStored new).count r = s.count r - ref k.replyMemory r + ref new r := by
  cases new with
  | none => exact releaseStored_count ..
  | some f =>
    have hf := hs f
    have hrep : ref s.engine.reply? f = 1 := one_pos (hn f rfl)
    rw [refs_eq] at hf
    simp only [State.sideRefs, State.storedFrame?, hk, Option.bind_some] at hf
    have hne : (s.releaseStored k).count f ≠ 0 := by rw [releaseStored_count]; omega
    rw [State.addStored, addRef_count hne, releaseStored_count, ref_some]

theorem updateReplyMemory_balanced {s : State} (hs : Balanced s) (j : Job) {new : Option RecordNo}
    (hn : ∀ r, new = some r → s.engine.reply? = some r) : Balanced (s.updateReplyMemory j new) := by
  unfold State.updateReplyMemory
  split
  · rename_i k hk _
    split
    · intro r
      have h := hs r
      have hc := exchangeStored_count hs hk hn r
      have hd : ((s.releaseStored k).addStored new).dequeRefs r = s.dequeRefs r := dequeRefs_congr (by simp) r
      have hp : ((s.releaseStored k).addStored new).portsRefs r = s.portsRefs r := portsRefs_congr (by simp) r
      rw [refs_eq] at h
      simp only [State.sideRefs, State.storedFrame?, hk, Option.bind_some] at h
      refine hc.trans ((Eq.trans ?_ (refs_eq ..).symm))
      change _ = ((s.releaseStored k).addStored new).dequeRefs r + ((s.releaseStored k).addStored new).portsRefs r +
        (ref ((s.releaseStored k).addStored new).engine.orderFrame? r +
          ref ((s.releaseStored k).addStored new).engine.reply? r +
          ref ((s.releaseStored k).addStored new).buildingFrame? r + ref new r)
      simp only [hd, hp, addStored_engine, releaseStored_engine, State.buildingFrame?, addStored_exc,
        releaseStored_exc] at h ⊢
      omega
    · exact hs
  · exact hs

theorem releaseOrder_count (j : Job) (s : State) (r : RecordNo) :
    (s.releaseOrder j).count r = s.count r - ref j.orderFrame r := by
  unfold State.releaseOrder
  split
  · rename_i f hf
    rw [release_count, hf, ref_some]
  · rename_i hf
    rw [hf, ref_none]
    rfl

theorem finish_engine (j : Job) (s : State) : (s.finish j).engine = .idle := by
  simp only [State.finish]
  split
  · split <;> rfl
  · split <;> rfl

theorem releaseStep_count (j : Job) (new : Option RecordNo) (s : State) (r : RecordNo) :
    (s.releaseStep j new).count r = s.count r - ref new r - ref j.orderFrame r := by
  cases new with
  | none => exact ((finish_samePool j s).count r).trans (releaseOrder_count ..)
  | some f =>
    rw [ref_some, ← release_count]
    exact ((finish_samePool j _).count r).trans (releaseOrder_count ..)

theorem releaseStep_engine (j : Job) (new : Option RecordNo) (s : State) : (s.releaseStep j new).engine = .idle := by
  cases new with
  | none => exact finish_engine ..
  | some f => exact finish_engine ..

theorem orderFrame_replying (j : Job) (status : FrameStatus) (next : ReplyStep) :
    Engine.orderFrame? (.replying j status next) = j.orderFrame := rfl

theorem reply_replying (j : Job) (status : FrameStatus) (next : ReplyStep) :
    Engine.reply? (.replying j status next) = next.reply? := rfl

theorem orderFrame_idle : Engine.orderFrame? .idle = none := rfl

theorem reply_idle : Engine.reply? .idle = none := rfl

theorem releaseStep_balanced {s : State} (hs : Balanced s) {j : Job} {status : FrameStatus} {next : ReplyStep}
    (he : s.engine = .replying j status next) : Balanced (s.releaseStep j next.reply?) := by
  intro r
  have h := hs r
  have hc := releaseStep_count j next.reply? s r
  have hd : (s.releaseStep j next.reply?).dequeRefs r = s.dequeRefs r := dequeRefs_congr (by simp) r
  have hp : (s.releaseStep j next.reply?).portsRefs r = s.portsRefs r := portsRefs_congr (by simp) r
  rw [refs_eq] at h ⊢
  simp only [State.sideRefs, State.buildingFrame?, State.storedFrame?, he, releaseStep_engine, releaseStep_exc,
    releaseStep_claim, orderFrame_replying, reply_replying, orderFrame_idle, reply_idle, ref_none] at h ⊢
  omega

/-! ## Moves that hand a reference on -/

theorem takeOrder_balanced {s : State} (hs : Balanced s) {f : RecordNo} {rest : List RecordNo} {j : Job}
    {status : FrameStatus} {next : ReplyStep} (he : s.engine = .idle) (hq : (s.deque intake).entries = f :: rest)
    (hf : f ∉ rest) (hj : j.orderFrame = some f) (hn : next.reply? = none) :
    Balanced { s.setDeque intake { s.deque intake with entries := rest } with engine := .replying j status next } := by
  intro r
  have h := hs r
  have hd := dequeRefs_setDeque intake { s.deque intake with entries := rest } s r
  rw [hq, listed_cons hf] at hd
  rw [refs_eq] at h
  simp only [State.sideRefs, he, orderFrame_idle, reply_idle, ref_none] at h
  refine Eq.trans (Eq.trans (show _ = s.count r from rfl) h) (Eq.trans ?_ (refs_eq ..).symm)
  change _ = (s.setDeque intake { s.deque intake with entries := rest }).dequeRefs r + s.portsRefs r +
    (ref j.orderFrame r + ref next.reply? r + ref s.buildingFrame? r + ref s.storedFrame? r)
  rw [hj, hn, ref_some, ref_none]
  dsimp only at hd ⊢
  omega

theorem build_count {h : Header} {payload : List Byte} {f : RecordNo} {s u : State} (hs : PoolLaw s)
    (hb : s.build h payload = some (f, u)) (r : RecordNo) : u.count r = s.count r + one (r = f) := by
  obtain ⟨hfree, x, -, -, hone, hx⟩ := build_record hs hb
  rw [State.count, State.count, hx]
  split
  · rename_i hr
    rw [one_pos hr, hr, hfree]
    exact hone
  · rename_i hr
    rw [one_neg hr]
    rfl

theorem buildNotice_balanced {s t : State} (hs : Balanced s) (hp : PoolLaw s) {h : Header} {payload : List Byte}
    {f : RecordNo} (ht : s.build h payload = some (f, t)) (hb : s.exc.building = none) (dest : Address) (seqs : List Byte) :
    Balanced { t with exc := { t.exc with building := some ⟨f, dest, seqs⟩ } } := by
  intro r
  have hr := hs r
  have hc := build_count hp ht r
  obtain ⟨rest, -, -, rfl⟩ := build_granted ht
  rw [refs_eq] at hr
  simp only [State.sideRefs, State.buildingFrame?, hb, Option.map_none, ref_none] at hr
  refine hc.trans (Eq.trans ?_ (refs_eq ..).symm)
  change _ = s.dequeRefs r + s.portsRefs r +
    (ref s.engine.orderFrame? r + ref s.engine.reply? r + ref (some f) r + ref s.storedFrame? r)
  rw [ref_some]
  omega

theorem buildReply_balanced {s t : State} (hs : Balanced s) (hp : PoolLaw s) {j : Job} {status : FrameStatus} {h : Header}
    {payload : List Byte} {f : RecordNo} (he : s.engine = .replying j status .build)
    (ht : s.build h payload = some (f, t)) :
    Balanced { t with engine := .replying j status (.memory (some f)) } := by
  intro r
  have hr := hs r
  have hc := build_count hp ht r
  obtain ⟨rest, -, -, rfl⟩ := build_granted ht
  rw [refs_eq] at hr
  simp only [State.sideRefs, he, orderFrame_replying, reply_replying, ReplyStep.reply?, ref_none] at hr
  refine hc.trans (Eq.trans ?_ (refs_eq ..).symm)
  change _ = s.dequeRefs r + s.portsRefs r +
    (ref j.orderFrame r + ref (some f) r + ref s.buildingFrame? r + ref s.storedFrame? r)
  rw [ref_some]
  omega

theorem arrive_balanced {s : State} (hs : Balanced s) (hl : DequeLaw s) (d : DequeNo) {f : RecordNo} (e : Insertion)
    (hf : s.refs f ≠ 0) : Balanced (s.arrive d f e).2 := by
  have hne : s.count f ≠ 0 := by rw [hs f]; exact hf
  have side (r : RecordNo) : (s.arrive d f e).2.sideRefs r = s.sideRefs r :=
    sideRefs_congr (by simp) (arrive_building ..) (by simp) r
  have ports (r : RecordNo) : (s.arrive d f e).2.portsRefs r = s.portsRefs r := portsRefs_congr (by simp) r
  rcases arrive_samePool d f e s with h | ⟨hfn, hp, hdq⟩ | ⟨v, rest, hfn, hperm, hp, hdq⟩
  · rw [h]; exact hs
  · intro r
    have h := hs r
    have hc : (s.arrive d f e).2.count r = s.count r + one (r = f) := (hp.count r).trans (addRef_count hne r)
    have hd := dequeRefs_written hdq r
    rw [listed_place hfn] at hd
    rw [refs_eq] at h ⊢
    rw [side, ports]
    omega
  · have hnd : (v :: rest).Nodup := (hperm.nodup_iff).mp (hl d).1
    have hv : v ∉ rest := (List.nodup_cons.mp hnd).1
    have hfv : f ≠ v := by rintro rfl; exact hfn (hperm.mem_iff.mpr List.mem_cons_self)
    have hfr : f ∉ rest := fun hm => hfn (hperm.mem_iff.mpr (List.mem_cons_of_mem v hm))
    have hne' : (s.release v).count f ≠ 0 := by rw [release_count, one_neg hfv]; exact hne
    intro r
    have h := hs r
    have hc : (s.arrive d f e).2.count r = s.count r - one (r = v) + one (r = f) := by
      rw [hp.count, addRef_count hne', release_count]
    have hd := dequeRefs_written hdq r
    rw [listed_place hfr, listed_perm hperm, listed_cons hv] at hd
    have hcover : one (r = v) ≤ s.dequeRefs r := by
      have := dequeRefs_setDeque d { s.deque d with entries := rest } s r
      rw [listed_perm hperm, listed_cons hv] at this
      dsimp only at this
      omega
    rw [refs_eq] at h ⊢
    rw [side, ports]
    omega

/-- A port holds the same frames. -/
theorem setPort_balanced {s : State} (hs : Balanced s) {p : Port} {y : PortState}
    (ht : y.transmitter.frame? = (s.port p).transmitter.frame?) (ha : y.admission.frame? = (s.port p).admission.frame?) :
    Balanced (s.setPort p y) := by
  refine balanced_of hs (fun _ => rfl) (fun _ => rfl) (fun r => ?_) fun _ => rfl
  have := portsRefs_setPort p y s r
  simp only [PortState.refs, ht, ha] at this
  omega

/-- A deque holds the same frames. -/
theorem setDeque_balanced {s : State} (hs : Balanced s) {d : DequeNo} {x : Deque} (h : x.entries = (s.deque d).entries) :
    Balanced (s.setDeque d x) := by
  refine balanced_of hs (fun _ => rfl) (fun r => ?_) (fun _ => rfl) fun _ => rfl
  have := dequeRefs_setDeque d x s r
  rw [h] at this
  omega

/-- The transmitter goes over to the head of the deque, unless that is released at once (R37, R97). -/
theorem takeFrom_balanced {s : State} (hs : Balanced s) (hl : DequeLaw s) {p : Port} (c : Choice)
    (ht : (s.port p).transmitter = .idle) : Balanced (s.takeFrom p c) := by
  simp only [State.takeFrom]
  split
  · exact hs
  · rename_i f rest hq
    have hf : f ∉ rest := by
      have := (hl (c.deque p)).1
      rw [hq] at this
      exact (List.nodup_cons.mp this).1
    obtain ⟨m, hm⟩ := moveMarker_port p c (s.setDeque (c.deque p) { s.deque (c.deque p) with entries := rest })
    rw [hm]
    change Balanced (State.sendOrDrop p _ f
      ((s.setDeque (c.deque p) { s.deque (c.deque p) with entries := rest }).setPort p { s.port p with markers := m }))
    generalize hu : (s.setDeque (c.deque p) { s.deque (c.deque p) with entries := rest }).setPort p
      { s.port p with markers := m } = u
    have hcu (r : RecordNo) : u.count r = s.count r := by rw [← hu]; rfl
    have hside (r : RecordNo) : u.sideRefs r = s.sideRefs r := by rw [← hu]; rfl
    have hd (r : RecordNo) : u.dequeRefs r + listed (s.deque (c.deque p)).entries r = s.dequeRefs r + listed rest r := by
      rw [← hu]
      exact dequeRefs_setDeque (c.deque p) { s.deque (c.deque p) with entries := rest } s r
    have hports (r : RecordNo) : u.portsRefs r + (s.port p).refs r =
        s.portsRefs r + ({ s.port p with markers := m } : PortState).refs r := by
      rw [← hu]
      exact portsRefs_setPort p { s.port p with markers := m } s r
    have hport : u.port p = { s.port p with markers := m } := by rw [← hu]; simp
    intro r
    have h := hs r
    have hdr := hd r
    have hpr := hports r
    have hsr := hside r
    have hcr := hcu r
    rw [hq, listed_cons hf] at hdr
    rw [refs_eq] at h
    simp only [PortState.refs] at hpr
    unfold State.sendOrDrop
    split
    · generalize hv : (State.report _ u) = v
      have hvc : (v.release f).count r = u.count r - one (r = f) := by
        rw [release_count, ← hv]
        exact congrArg (· - _) (SamePool.count ⟨by simp, by simp, by simp⟩ r)
      have hvs : (v.release f).sideRefs r = u.sideRefs r := by
        rw [← hv]
        exact sideRefs_congr (by simp) (by simp [report_building]) (by simp) r
      have hvd : (v.release f).dequeRefs r = u.dequeRefs r := by rw [← hv]; exact dequeRefs_congr (by simp) r
      have hvp : (v.release f).portsRefs r = u.portsRefs r := by rw [← hv]; exact portsRefs_congr (by simp) r
      refine hvc.trans (Eq.trans ?_ (refs_eq (v.release f) r).symm)
      omega
    · have hw : (u.setTransmitter p (.sending f (c.deque p) (u.cellsToRead f))).portsRefs r + (u.port p).refs r =
          u.portsRefs r + ({ u.port p with transmitter := .sending f (c.deque p) (u.cellsToRead f) } : PortState).refs r :=
        portsRefs_setPort ..
      simp only [PortState.refs, hport, ht, Transmitter.frame?, ref_some, ref_none] at hw hpr
      refine Eq.trans (show _ = u.count r from rfl) (Eq.trans ?_ (refs_eq _ r).symm)
      change _ = u.dequeRefs r + _ + u.sideRefs r
      omega

theorem balanced_of_empty {s : State} (hr : ∀ r, s.record r = .free) (hd : ∀ d, (s.deque d).entries = [])
    (ht : ∀ p, (s.port p).transmitter = .idle ∧ (s.port p).admission = .idle) (ho : s.engine.orderFrame? = none)
    (hp : s.engine.reply? = none) (hb : s.exc.building = none) (hm : s.claim.bind (·.replyMemory) = none) :
    Balanced s := by
  intro r
  have hc : s.count r = 0 := by rw [State.count, hr]; rfl
  have hd' : s.dequeRefs r = 0 := by
    rw [State.dequeRefs, List.countP_eq_zero]
    intro q hq
    obtain ⟨i, hi, rfl⟩ := List.mem_iff_getElem.mp hq
    have he : (s.deques.toList[i]).entries = [] := hd ⟨i, by simpa using hi⟩
    rw [he]
    simp
  have hports (p : Port) : (s.port p).refs r = 0 := by
    simp [PortState.refs, (ht p).1, (ht p).2, Transmitter.frame?, AdmissionUnit.frame?]
  rw [refs_eq, hc, hd']
  simp [State.portsRefs, hports, State.sideRefs, ho, hp, State.buildingFrame?, State.storedFrame?, hb, hm]

theorem FramesReset.balanced {s t u : State} (h : FramesReset s t) (hr : u.records = t.records) (hd : u.deques = t.deques)
    (hp : u.ports = t.ports) (hx : u.exc = t.exc) (hc : u.claim = t.claim) (ho : u.engine.orderFrame? = none)
    (hrep : u.engine.reply? = none) : Balanced u := by
  refine balanced_of_empty (fun r => ?_) (fun d => ?_) (fun p => ?_) ho hrep (hx ▸ h.building) (hc ▸ h.replyMemory)
  · rw [State.record, hr]
    exact h.record r
  · rw [State.deque, hd]
    exact h.entries d
  · obtain ⟨o, m, he⟩ := h.port p
    rw [State.port, hp]
    rw [State.port] at he
    rw [he]
    exact ⟨rfl, rfl⟩

/-! ## The law -/

theorem poolMove_counted {handed : Prop} {s t : State} (hp : PoolLaw s) (hs : Counted s) (h : PoolMove handed s t) :
    Counted t := by
  have same : ∀ {u : State}, Counted u → (∀ r, t.record r = u.record r) → Counted t :=
    fun hu h r x hx => hu r x (by rwa [h] at hx)
  have written : ∀ {r z}, (∀ x, z = .held x → 1 ≤ x.count) → Counted (s.setRecord r z) := by
    intro r z hz k x hx
    rw [setRecord_record] at hx
    split at hx
    · exact hz x hx
    · exact hs k x hx
  cases h with
  | keeps h hr => exact h.counted hs
  | receiver p y h hp he hy => exact same hs h.record
  | receive p x x' h hx hp hr hf => exact same hs h.record
  | newCell p x x' f c rest hx hr hf hc h hp hl => exact same (written (z := .receiving _) fun _ h => nomatch h) h.record
  | beginFrame p r rest hf he hu h hp => exact same (written (z := .receiving _) fun _ h => nomatch h) h.record
  | giveBack p x y hx hy h hp =>
    refine same ?_ h.record
    unfold State.returnReceived
    split
    · exact written fun _ h => nomatch h
    · exact hs
  | build h payload r u hb hu hr hl =>
    obtain ⟨-, x, -, -, hone, hx⟩ := build_record hp hb
    refine same (fun k y hy => ?_) hu.record
    rw [hx] at hy
    split at hy
    · cases hy; exact hone.ge
    · exact hs k y hy
  | clear hc hf hr he => exact fun r x hx => by rw [hr] at hx; cases hx
  | handOver p x f h ho hx hf ht hp hc hn hl hb => exact same (written fun y hy => by cases hy; exact hn.ge) ht.record

theorem returnReceived_count {s : State} {r : RecordNo} (k : RecordNo) : (s.returnReceived r).count k = s.count k := by
  unfold State.returnReceived
  split
  · rename_i f hf
    rw [State.count, State.count, freeFrame_record]
    split
    · rename_i hk; rw [hk, hf]; rfl
    · rfl
  · rfl

theorem setRecord_count {s : State} {r : RecordNo} {z : FrameRecord} (h : z.count = (s.record r).count) (k : RecordNo) :
    (s.setRecord r z).count k = s.count k := by
  rw [State.count, State.count, setRecord_record]
  split
  · rename_i hk; rw [hk, h]
  · rfl

theorem applyHopRule_count (f : RecordNo) (rule : HopRule) (s : State) (r : RecordNo) :
    (s.applyHopRule f rule).count r = s.count r := by
  unfold State.applyHopRule
  split
  · rename_i h hf
    exact setRecord_count (by rw [hf]; rfl) r
  · rfl

theorem setReceiver_balanced {s : State} (hs : Balanced s) (p : Port) (x : Receiver) : Balanced (s.setReceiver p x) :=
  setPort_balanced hs rfl rfl

theorem storeByte_balanced {s : State} (hs : Balanced s) (r : RecordNo) (i : Nat) (b : Byte) :
    Balanced (s.storeByte r i b) :=
  balanced_of hs (storeByte_samePool ..).count (dequeRefs_congr (by simp)) (portsRefs_congr (by simp))
    (sideRefs_congr (by simp) (by simp) (by simp))

theorem afterHardReset_balanced (straps : BitVec 12) (a : Address) (n : Nat) (q : List Instr) :
    Balanced (afterHardReset straps a n q) :=
  balanced_of_empty (by simp) (by simp [resetDeque]) (by simp [resetPort]) rfl rfl rfl rfl

@[simp] theorem syncTimer_building (s : State) : s.syncTimer.exc.building = s.exc.building := rfl

@[simp] theorem retain_building (u : ExcUnit) (keep : ExceptionRecord → Bool) :
    (u.retain keep).building = u.building := rfl

@[simp] theorem notify_building (seqs : List Byte) (s : State) : (s.notify seqs).exc.building = s.exc.building := rfl

@[simp] theorem detect_building (x : Location) (p : Port) (d : Option DequeNo) (m : Option Summary) (s : State) :
    (s.detect x p d m).2.exc.building = s.exc.building := by
  unfold State.detect
  dsimp only
  split
  · exact report_building (checkRequest x p d m) { s with check := s.check.note x }
  · rfl

theorem move_balanced {s t : State} (hs : Balanced s) (hp : PoolLaw s) (hl : DequeLaw s) (h : Move s t) : Balanced t := by
  cases h with
  | portAside p y hlk hr ht ha hw => exact setPort_balanced hs (by rw [ht]) (by rw [ha])
  | link p l hr hu => exact setPort_balanced hs rfl rfl
  | lineWaits p w hw => exact setPort_balanced hs rfl rfl
  | beginFrame p r rest hf he hu =>
    have hfree : s.record r = .free := (hp.2.2 r).mp (by rw [hf]; exact List.mem_cons_self)
    refine setReceiver_balanced (s := { s.setRecord r (.receiving ⟨[], p, s.timebase⟩) with freeRecords := rest })
      (balanced_of hs (fun k => ?_) (fun _ => rfl) (fun _ => rfl) fun _ => rfl) p _
    exact setRecord_count (z := .receiving ⟨[], p, s.timebase⟩) (by rw [hfree]; rfl) k
  | giveBack p x y hx hy =>
    exact setReceiver_balanced (balanced_of hs returnReceived_count (dequeRefs_congr (by simp)) (portsRefs_congr (by simp))
      (sideRefs_congr (by simp) (by simp) (by simp))) p y
  | emptyReceiver p y he hy => exact setReceiver_balanced hs _ _
  | markDamage p x hx => exact setReceiver_balanced hs _ _
  | fillWindow p x b hx hw => exact setReceiver_balanced hs _ _
  | storeByte p x b o w0 w1 w2 tl hx hn hw hb =>
    exact setReceiver_balanced (storeByte_balanced hs _ _ _) _ _
  | storeInNewCell p x b o w0 w1 w2 tl t hx hn hw hb ht =>
    obtain ⟨c, rest, f, -, hf, -, rfl⟩ := takeCell_granted ht
    refine setReceiver_balanced (storeByte_balanced (s := { s.setRecord x.record
        (.receiving { f with cells := f.cells ++ [c] }) with freeCells := rest })
      (balanced_of hs (fun k => ?_) (fun _ => rfl) (fun _ => rfl) fun _ => rfl) _ _ _) _ _
    exact setRecord_count (z := .receiving { f with cells := f.cells ++ [c] }) (by rw [hf]; rfl) k
  | admission p a b ha hf hlaw =>
    exact setPort_balanced hs rfl (by rw [ha]; exact congrArg some hf)
  | admissionRelease p a ha => exact admissionRelease_balanced hs ha
  | hopRule r rule =>
    exact balanced_of hs (applyHopRule_count r rule s) (dequeRefs_congr (by simp)) (portsRefs_congr (by simp))
      (sideRefs_congr (by simp) (by simp) (by simp))
  | arrive d r e hr => exact arrive_balanced hs hl d e hr
  | takeFrom p c ht hu => exact takeFrom_balanced hs hl c ht
  | stopSending p r d unread ht => exact stopSending_balanced hs ht
  | readOn p r d unread rest ht hsuf => exact setPort_balanced hs (by rw [ht]; rfl) rfl
  | drain d target n r rest x hst he hx =>
    refine drain_balanced hs he ?_
    have := (hl d).1
    rw [he] at this
    exact (List.nodup_cons.mp this).1
  | dequeConfig d c hd hst => exact setDeque_balanced hs rfl
  | dequeState d x hd hx => exact setDeque_balanced hs rfl
  | takeClaim j lease hc =>
    refine balanced_of hs (SamePool.count ⟨by simp, by simp, by simp⟩) (dequeRefs_congr (by simp))
      (portsRefs_congr (by simp)) fun r => ?_
    simp [State.sideRefs, State.buildingFrame?, State.storedFrame?, State.syncTimer, report_building, hc]
  | claim k k' hk hm =>
    refine balanced_of hs (fun _ => rfl) (fun _ => rfl) (fun _ => rfl) fun r => ?_
    simp [State.sideRefs, State.buildingFrame?, State.storedFrame?, hk, hm]
  | clearClaim k hk => exact clearClaim_balanced hs hk
  | replyMemory j new hn => exact updateReplyMemory_balanced hs j hn
  | dropNotice n hb => exact dropNotice_balanced hs hb
  | buildNotice h rs r t dest seqs hb hlen ht => exact buildNotice_balanced hs hp ht hb dest seqs
  | takeOrder r rest j status next he hq hj hr hst hn =>
    refine takeOrder_balanced hs he hq ?_ hj hn
    have := (hl intake).1
    rw [hq] at this
    exact (List.nodup_cons.mp this).1
  | engine e hf hr hlaw =>
    refine balanced_of hs (fun _ => rfl) (fun _ => rfl) (fun _ => rfl) fun r => ?_
    simp [State.sideRefs, State.buildingFrame?, State.storedFrame?, hf, hr]
  | buildReply j status h r t he ht => exact buildReply_balanced hs hp he ht
  | releaseStep j status next he => exact releaseStep_balanced hs he
  | resetTraffic e f ho hr hlaw =>
    exact (resetTraffic_framesReset s).balanced (by dsimp only) (by dsimp only) (by dsimp only) (by dsimp only)
      (by dsimp only) ho hr
  | resetFull e f ho hr hlaw =>
    exact (resetFull_framesReset s).balanced (by dsimp only) (by dsimp only) (by dsimp only) (by dsimp only)
      (by dsimp only) ho hr
  | hardReset straps =>
    exact afterHardReset_balanced straps (strapAddress straps) s.freeDraws s.pending
  | _ =>
    exact balanced_of hs (SamePool.count ⟨by simp, by simp, by simp⟩) (dequeRefs_congr (by simp))
      (portsRefs_congr (by simp)) (sideRefs_congr (by simp) (by simp [report_building]) (by simp))

theorem handOver_balanced {s t : State} (hs : Balanced s) (h : HandOver s t) : Balanced t := by
  obtain ⟨p, x, f, h, hr, hf, ha, -⟩ := h
  intro r
  have hb := hs r
  have hc : (s.handOver p x.record f (x.lineBytes - 4) h).count r = s.count r + one (r = x.record) := by
    rw [State.handOver]
    refine Eq.trans (show _ = (s.setRecord x.record (.held _)).count r from rfl) ?_
    rw [State.count, State.count, setRecord_record]
    split
    · rename_i hk; rw [one_pos hk, hk, hf]; rfl
    · rename_i hk; rw [one_neg hk]; rfl
  have hd : (s.handOver p x.record f (x.lineBytes - 4) h).dequeRefs r = s.dequeRefs r := rfl
  have he : (s.handOver p x.record f (x.lineBytes - 4) h).sideRefs r = s.sideRefs r := rfl
  have hp := portsRefs_written (p := p) (s := s) (t := s.handOver p x.record f (x.lineBytes - 4) h)
    (y := { s.port p with
      receiver := .idle
      admission := .admitting
        ⟨x.record, s.station, choosePath s.station h, none, none, firstStep (choosePath s.station h) h⟩ })
    (by simp [State.handOver, State.setReceiver, State.setAdmission, State.updPort, State.setPort, State.port,
      PerPort.set_set]) r
  simp only [PortState.refs, ha, AdmissionUnit.frame?, ref_some, ref_none] at hp
  rw [refs_eq] at hb ⊢
  omega

/-- What the count law needs of a state, and keeps. -/
structure Tallied (s : State) : Prop where
  counted : Counted s
  balanced : Balanced s
  pool : PoolLaw s
  deques : DequeLaw s

theorem move_tallied (s t : State) (hs : Tallied s) (h : Move s t) : Tallied t :=
  ⟨poolMove_counted hs.pool hs.counted (move_poolMove h), move_balanced hs.balanced hs.pool hs.deques h,
    poolMove_poolLaw hs.pool (move_poolMove h), move_dequeLaw s t hs.deques h⟩

theorem handOver_tallied (s t : State) (hs : Tallied s) (h : HandOver s t) : Tallied t :=
  ⟨poolMove_counted hs.pool hs.counted (handOver_poolMove h), handOver_balanced hs.balanced h,
    poolMove_poolLaw hs.pool (handOver_poolMove h), handOver_dequeLaw s t hs.deques h⟩

/-! ## What a transmitter has not read (R91, R92) -/

theorem Tallied.held {s : State} (hs : Tallied s) {r : RecordNo} (h : s.refs r ≠ 0) : ∃ x, s.record r = .held x :=
  held_of_count (by rw [hs.balanced r]; exact h)

/-- A transmitter that is SENDING after the move was so before it, with more to read, or begins with all there is to
read of a record that had a holder. -/
def Reads (s t : State) : Prop :=
  ∀ p r d u, (t.port p).transmitter = .sending r d u →
    (∃ d' u', (s.port p).transmitter = .sending r d' u' ∧ u <:+ u') ∨ (u = s.cellsToRead r ∧ s.refs r ≠ 0)

theorem reads_of_same {s t : State} (h : ∀ p, (t.port p).transmitter = (s.port p).transmitter) : Reads s t := by
  intro p r d u hu
  rw [h] at hu
  exact .inl ⟨d, u, hu, List.suffix_refl u⟩

theorem reads_of_ports {s t : State} (h : t.ports = s.ports) : Reads s t :=
  reads_of_same fun p => by rw [State.port, State.port, h]

theorem reads_of_setPort {s t : State} {p : Port} {y : PortState} (h : t.ports = (s.setPort p y).ports)
    (hy : ∀ r d u, y.transmitter = .sending r d u →
      (∃ d' u', (s.port p).transmitter = .sending r d' u' ∧ u <:+ u') ∨ (u = s.cellsToRead r ∧ s.refs r ≠ 0)) :
    Reads s t := by
  intro q r d u hu
  rw [State.port, h, ← State.port] at hu
  by_cases hq : q = p
  · subst hq
    rw [setPort_port_same] at hu
    exact hy r d u hu
  · rw [setPort_port_of_ne _ _ hq] at hu
    exact .inl ⟨d, u, hu, List.suffix_refl u⟩

theorem reads_of_keptPort {s t : State} {p : Port} {y : PortState} (h : t.ports = (s.setPort p y).ports)
    (hy : y.transmitter = (s.port p).transmitter ∨ y.transmitter = .idle) : Reads s t := by
  refine reads_of_setPort h fun r d u hu => ?_
  rcases hy with hy | hy
  · rw [hy] at hu
    exact .inl ⟨d, u, hu, List.suffix_refl u⟩
  · rw [hy] at hu
    cases hu

/-- A deque that holds the record is a holder. -/
theorem refs_of_entry {s : State} {d : DequeNo} {r : RecordNo} (h : r ∈ (s.deque d).entries) : s.refs r ≠ 0 := by
  have hpos : 0 < s.dequeRefs r := by
    rw [State.dequeRefs, List.countP_pos_iff]
    exact ⟨s.deque d, by simp [State.deque], by simpa using h⟩
  rw [refs_eq]
  omega

theorem takeFrom_reads {s : State} (p : Port) (c : Choice) : Reads s (s.takeFrom p c) := by
  simp only [State.takeFrom]
  split
  · exact reads_of_same fun _ => rfl
  · rename_i f rest hq
    obtain ⟨m, hm⟩ := moveMarker_port p c (s.setDeque (c.deque p) { s.deque (c.deque p) with entries := rest })
    rw [hm]
    unfold State.sendOrDrop
    split
    · refine reads_of_keptPort (p := p) (y := { s.port p with markers := m }) ?_ (.inl rfl)
      simp [State.setPort, State.port]
    · refine reads_of_setPort (p := p) (y := { s.port p with
        markers := m
        transmitter := .sending f (c.deque p) (s.cellsToRead f) }) ?_ fun r d u hu => ?_
      · simp [State.setTransmitter, State.updPort, State.setPort, State.port, PerPort.set_set]
        rfl
      · cases hu
        exact .inr ⟨rfl, refs_of_entry (by rw [hq]; exact List.mem_cons_self)⟩

theorem reads_of_idle {s t : State} (h : ∀ p, (t.port p).transmitter = .idle) : Reads s t :=
  fun p r d u hu => by rw [h] at hu; cases hu

theorem FramesReset.reads {s t u : State} (h : FramesReset s t) (hp : u.ports = t.ports) : Reads s u := by
  refine reads_of_idle fun p => ?_
  obtain ⟨o, m, he⟩ := h.port p
  rw [State.port, hp]
  rw [State.port] at he
  rw [he]
  rfl

theorem afterHardReset_reads (straps : BitVec 12) (a : Address) (n : Nat) (q : List Instr) (s : State) :
    Reads s (afterHardReset straps a n q) := reads_of_idle (by simp [resetPort])

theorem setReceiver_reads {s u : State} (hu : u.ports = s.ports) (p : Port) (x : Receiver) :
    Reads s (u.setReceiver p x) := by
  refine reads_of_keptPort (p := p) (y := { s.port p with receiver := x }) ?_ (.inl rfl)
  simp [State.setReceiver, State.updPort, State.setPort, State.port, hu]

theorem move_reads {s t : State} (h : Move s t) : Reads s t := by
  cases h with
  | portAside p y hlk hr ht ha hw => exact reads_of_keptPort rfl (.inl ht)
  | link p l hr hu => exact reads_of_keptPort (p := p) (y := { s.port p with link := l }) rfl (.inl rfl)
  | lineWaits p w hw => exact reads_of_keptPort (p := p) (y := { s.port p with lineWaits := w }) rfl (.inl rfl)
  | beginFrame p r rest hf he hu => exact setReceiver_reads (by simp) _ _
  | giveBack p x y hx hy => exact setReceiver_reads (by simp) _ _
  | emptyReceiver p y he hy => exact setReceiver_reads rfl _ _
  | markDamage p x hx => exact setReceiver_reads rfl _ _
  | fillWindow p x b hx hw => exact setReceiver_reads rfl _ _
  | storeByte p x b o w0 w1 w2 tl hx hn hw hb => exact setReceiver_reads (by simp) _ _
  | storeInNewCell p x b o w0 w1 w2 tl t hx hn hw hb ht =>
    obtain ⟨c, rest, f, -, -, -, rfl⟩ := takeCell_granted ht
    exact setReceiver_reads (by simp) _ _
  | admission p a b ha hf hl =>
    exact reads_of_keptPort (p := p) (y := { s.port p with admission := .admitting b }) rfl (.inl rfl)
  | admissionRelease p a ha =>
    refine reads_of_keptPort (p := p) (y := { s.port p with admission := .idle }) ?_ (.inl rfl)
    simp [State.admissionRelease, State.setAdmission, State.updPort, State.setPort, State.port]
  | takeFrom p c ht hu => exact takeFrom_reads p c
  | stopSending p r d unread ht =>
    refine reads_of_keptPort (p := p) (y := { s.port p with transmitter := .idle }) ?_ (.inr rfl)
    simp [State.setTransmitter, State.updPort, State.setPort, State.port]
  | readOn p r d unread rest ht hs =>
    refine reads_of_setPort (p := p) (y := { s.port p with transmitter := .sending r d rest }) rfl fun r' d' u hu => ?_
    cases hu
    exact .inl ⟨d, unread, ht, hs⟩
  | buildNotice h rs r t dest seqs hb hl ht =>
    obtain ⟨rest, -, -, rfl⟩ := build_granted ht
    exact reads_of_ports rfl
  | buildReply j status h r t he ht =>
    obtain ⟨rest, -, -, rfl⟩ := build_granted ht
    exact reads_of_ports rfl
  | resetTraffic e f ho hr hl => exact (resetTraffic_framesReset s).reads (by dsimp only)
  | resetFull e f ho hr hl => exact (resetFull_framesReset s).reads (by dsimp only)
  | hardReset straps => exact afterHardReset_reads straps (strapAddress straps) s.freeDraws s.pending s
  | _ => exact reads_of_ports (by simp)

theorem handOver_reads {s t : State} (h : HandOver s t) : Reads s t := by
  obtain ⟨p, x, f, h, hr, hf, ha, -⟩ := h
  refine reads_of_same fun q => ?_
  by_cases hq : q = p
  · subst hq
    simp [State.handOver, State.setReceiver, State.setAdmission, State.port]
  · simp only [State.handOver, State.setReceiver, State.setAdmission, updPort_port_of_ne _ _ hq]
    rfl

/-- A frame that is HELD before and after has the cells that it had. -/
theorem poolMove_payloadCells {handed : Prop} {s t : State} (hs : PoolLaw s) (h : PoolMove handed s t) {r : RecordNo} {x x' : HeldFrame}
    (hx : s.record r = .held x) (hx' : t.record r = .held x') : x'.payloadCells = x.payloadCells := by
  have same : t.record r = s.record r → x'.payloadCells = x.payloadCells := by
    intro he
    rw [he, hx] at hx'
    cases hx'
    rfl
  have other : ∀ {k z}, s.record k ≠ .held x → t.record r = (if r = k then z else s.record r) →
      x'.payloadCells = x.payloadCells := by
    intro k z hk ht
    refine same (ht.trans (if_neg ?_))
    rintro rfl
    exact hk hx
  cases h with
  | keeps h hr =>
    obtain ⟨y, hy, hc, hl⟩ := h.held r x' hx'
    rw [hx] at hy
    cases hy
    simp only [HeldFrame.payloadCells, hc, hl]
  | receiver p y h hp he hy => exact same (h.record r)
  | receive p x x' h hx hp hr hf => exact same (h.record r)
  | newCell p x x' f c rest hx hr hf hc h hp hl =>
    exact other (k := x.record) (by rw [hf]; simp) ((h.record r).trans (setRecord_record ..))
  | beginFrame p k rest hf he hu h hp =>
    have hfree : s.record k = .free := (hs.2.2 k).mp (by rw [hf]; exact List.mem_cons_self)
    exact other (by rw [hfree]; simp) ((h.record r).trans (setRecord_record ..))
  | giveBack p y z hy hz h hp =>
    rw [h.record] at hx'
    unfold State.returnReceived at hx'
    split at hx'
    · rename_i f hf
      rw [freeFrame_record] at hx'
      split at hx'
      · cases hx'
      · rw [hx] at hx'; cases hx'; rfl
    · rw [hx] at hx'; cases hx'; rfl
  | build h payload k u hb hu hr hl =>
    obtain ⟨hfree, y, -, -, -, hy⟩ := build_record hs hb
    exact other (by rw [hfree]; simp) ((hu.record r).trans (hy r))
  | clear hc hf hr he => rw [hr] at hx'; cases hx'
  | handOver p y f h ho hy hf ht hp hc hn hl hb =>
    exact other (by rw [hf]; simp) ((ht.record r).trans (setRecord_record ..))

theorem unreadLaw_iff {s : State} : UnreadLaw s ↔ ∀ p r d u, (s.port p).transmitter = .sending r d u →
    ∃ h, s.record r = .held h ∧ u <:+ h.payloadCells := by
  refine forall_congr' fun p => ?_
  cases (s.port p).transmitter with
  | idle => simp
  | sending r d u => cases hr : s.record r <;> simp [hr]

theorem unreadLaw_of_reads {handed : Prop} {s t : State} (hs : Tallied s) (ht : Tallied t) (hu : UnreadLaw s)
    (hp : PoolMove handed s t)
    (hr : Reads s t) : UnreadLaw t := by
  rw [unreadLaw_iff] at hu ⊢
  intro p r d u htr
  obtain ⟨x', hx'⟩ := ht.held (refs_of_transmitter htr)
  refine ⟨x', hx', ?_⟩
  rcases hr p r d u htr with ⟨d', u', hs', hsuf⟩ | ⟨rfl, hne⟩
  · obtain ⟨x, hx, hxu⟩ := hu p r d' u' hs'
    rw [poolMove_payloadCells hs.pool hp hx hx']
    exact hsuf.trans hxu
  · obtain ⟨x, hx⟩ := hs.held hne
    have hc : s.cellsToRead r = x.payloadCells := by simp [State.cellsToRead, State.held?, hx]
    rw [poolMove_payloadCells hs.pool hp hx hx', hc]

/-- Settles O58: every move balances counts and holders again, and a transmitter's record stays HELD while it sends. -/
theorem countLawKept : Obligations.CountLawKept := by
  unfold Obligations.CountLawKept
  have tallied : ∀ {s}, CountLaw s → PoolLaw s → DequeLaw s → Tallied s := fun hc hp hl =>
    ⟨(countLaw_iff.mp hc).1, (countLaw_iff.mp hc).2, hp, hl⟩
  refine ⟨fun s t hc hp _ _ hl h => ?count, fun s t hu hc hp _ _ hl h => ?unread⟩
  case count =>
    have := (step_reaches h).keeps move_tallied handOver_tallied (tallied hc hp hl)
    exact countLaw_iff.mpr ⟨this.counted, this.balanced⟩
  case unread =>
    exact ((step_reaches h).keeps (I := fun s => Tallied s ∧ UnreadLaw s)
      (fun s t hs hm => ⟨move_tallied s t hs.1 hm,
        unreadLaw_of_reads hs.1 (move_tallied s t hs.1 hm) hs.2 (move_poolMove hm) (move_reads hm)⟩)
      (fun s t hs hm => ⟨handOver_tallied s t hs.1 hm,
        unreadLaw_of_reads hs.1 (handOver_tallied s t hs.1 hm) hs.2 (handOver_poolMove hm) (handOver_reads hm)⟩)
      ⟨tallied hc hp hl, hu⟩).2

end Sys2Proof.Machine
end

section
/-! SUPPORT. The exception unit, the timer, the engine's lists and the HELD frames (tier 3); the laws at reset. -/

namespace Sys2Proof.Machine

open Sys2Proof

/-! ## Slots and creation list (R170 to R173) -/

/-- The creation list names the occupied slots once each, and no two of them hold the same sequence. -/
structure ExcUnit.lawful (u : ExcUnit) : Prop where
  nodup : u.creation.Nodup
  mem : ∀ i, i ∈ u.creation ↔ (u.slot i).isSome = true
  seq : ∀ i j a b, u.slot i = some a → u.slot j = some b → a.seq = b.seq → i = j

/-- The records' sequences are distinct exactly if occupied slots with one sequence are one slot. -/
theorem records_seq_nodup {u : ExcUnit} (hn : u.creation.Nodup) :
    (u.records.map (·.seq)).Nodup ↔ ∀ i ∈ u.creation, ∀ j ∈ u.creation, ∀ a b, u.slot i = some a → u.slot j = some b →
      a.seq = b.seq → i = j := by
  rw [ExcUnit.records, List.Nodup, List.pairwise_map, List.pairwise_filterMap]
  constructor
  · intro h i hi j hj a b ha hb hab
    by_contra hij
    have hsymm : Std.Symm fun i j => ∀ a, u.slot i = some a → ∀ b, u.slot j = some b → a.seq ≠ b.seq :=
      ⟨fun i j h a ha b hb hab => h b hb a ha hab.symm⟩
    exact h.forall hi hj hij a ha b hb hab
  · intro h
    refine hn.imp_of_mem fun hi hj hij a ha b hb hab => hij (h _ hi _ hj a b ha hb hab)

theorem exceptionLaw_iff {s : State} : ExceptionLaw s ↔ s.exc.lawful := by
  constructor
  · rintro ⟨hn, hm, hs⟩
    refine ⟨hn, hm, fun i j a b ha hb => ?_⟩
    exact (records_seq_nodup hn).mp hs i ((hm i).mpr (by rw [ha]; rfl)) j ((hm j).mpr (by rw [hb]; rfl)) a b ha hb
  · rintro ⟨hn, hm, hs⟩
    exact ⟨hn, hm, (records_seq_nodup hn).mpr fun i _ j _ a b ha hb => hs i j a b ha hb⟩

/-- Slots and creation list are all that the law looks at. -/
theorem ExcUnit.lawful.congr {u v : ExcUnit} (h : u.lawful) (hs : v.slots = u.slots) (hc : v.creation = u.creation) :
    v.lawful := by
  have slot : ∀ i, v.slot i = u.slot i := fun i => by rw [ExcUnit.slot, ExcUnit.slot, hs]
  exact ⟨hc ▸ h.nodup, fun i => by rw [slot, hc]; exact h.mem i, fun i j a b ha hb => by
    rw [slot] at ha hb
    exact h.seq i j a b ha hb⟩

/-- Records change in place, with the sequences they have. -/
theorem ExcUnit.lawful.mapped {u v : ExcUnit} (h : u.lawful) {f : ExceptionRecord → ExceptionRecord}
    (hf : ∀ r, (f r).seq = r.seq) (hs : ∀ i, v.slot i = (u.slot i).map f) (hc : v.creation = u.creation) : v.lawful := by
  refine ⟨hc ▸ h.nodup, fun i => ?_, fun i j a b ha hb hab => ?_⟩
  · rw [hc, hs, Option.isSome_map]
    exact h.mem i
  · rw [hs] at ha hb
    obtain ⟨a', ha', rfl⟩ := Option.map_eq_some_iff.mp ha
    obtain ⟨b', hb', rfl⟩ := Option.map_eq_some_iff.mp hb
    rw [hf, hf] at hab
    exact h.seq i j a' b' ha' hb' hab

theorem retain_slot (u : ExcUnit) (keep : ExceptionRecord → Bool) (i : SlotNo) :
    (u.retain keep).slot i = (u.slot i).filter keep := by
  simp [ExcUnit.retain, ExcUnit.slot]

theorem notify_slot (u : ExcUnit) (seqs : List Byte) (i : SlotNo) : (u.notify seqs).slot i =
    (u.slot i).map (fun r => if r.seq ∈ seqs then { r with mark := .notified } else r) := by
  simp [ExcUnit.notify, ExcUnit.slot]

theorem unnotify_slot (u : ExcUnit) (i : SlotNo) : u.unnotify.slot i = (u.slot i).map (fun r => { r with mark := .pending }) := by
  simp [ExcUnit.unnotify, ExcUnit.slot]

theorem setSlot_slot (u : ExcUnit) (i j : SlotNo) (x : Option ExceptionRecord) :
    (u.setSlot i x).slot j = if j = i then x else u.slot j := by
  by_cases h : j = i
  · subst h; simp [ExcUnit.setSlot, ExcUnit.slot]
  · have : i.val ≠ j.val := fun g => h (Fin.ext g.symm)
    simp [ExcUnit.setSlot, ExcUnit.slot, h, this]

theorem ExcUnit.lawful.retain {u : ExcUnit} (h : u.lawful) (keep : ExceptionRecord → Bool) : (u.retain keep).lawful := by
  refine ⟨h.nodup.filter _, fun i => ?_, fun i j a b ha hb => ?_⟩
  · rw [retain_slot]
    change i ∈ u.creation.filter _ ↔ _
    rw [List.mem_filter, h.mem]
    cases hx : u.slot i with
    | none => simp
    | some r => cases hk : keep r <;> simp [Option.filter, hk]
  · rw [retain_slot] at ha hb
    exact h.seq i j a b (Option.eq_some_of_filter_eq_some ha) (Option.eq_some_of_filter_eq_some hb)

/-- A new record in any slot, with a sequence that no record has, at the end of the creation list. -/
theorem ExcUnit.lawful.enter {u v : ExcUnit} (h : u.lawful) {i : SlotNo} {r : ExceptionRecord}
    (hr : ∀ j a, u.slot j = some a → a.seq ≠ r.seq) (hs : ∀ j, v.slot j = if j = i then some r else u.slot j)
    (hc : v.creation = u.creation.erase i ++ [i]) : v.lawful := by
  refine ⟨?_, fun j => ?_, fun j k a b ha hb hab => ?_⟩
  · rw [hc]
    refine List.nodup_append_comm.mp (List.nodup_cons.mpr ⟨?_, h.nodup.erase i⟩)
    exact h.nodup.not_mem_erase
  · rw [hc, hs, List.mem_append, List.mem_singleton, h.nodup.mem_erase_iff, h.mem]
    by_cases hj : j = i <;> simp [hj]
  · rw [hs] at ha hb
    by_cases hj : j = i
    · by_cases hk : k = i
      · rw [hj, hk]
      · rw [if_pos hj] at ha
        rw [if_neg hk] at hb
        cases ha
        exact absurd hab.symm (hr k b hb)
    · rw [if_neg hj] at ha
      by_cases hk : k = i
      · rw [if_pos hk] at hb
        cases hb
        exact absurd hab (hr j a ha)
      · rw [if_neg hk] at hb
        exact h.seq j k a b ha hb hab

theorem create_lawful {u : ExcUnit} (h : u.lawful) (q : Request) (now : Stamp) : (u.create q now).lawful := by
  refine (h.retain (fun r => r.seq ≠ u.counter)).enter (i := (u.retain (fun r => r.seq ≠ u.counter)).chooseSlot)
    (r := q.toRecord u.counter now) (fun j a ha => ?_) (fun j => ?_) rfl
  · rw [retain_slot, Option.filter_eq_some_iff] at ha
    simpa [Request.toRecord] using ha.2
  · exact setSlot_slot ..

/-! ## What moves do to the exception unit -/

theorem request_exc (q : Request) (s : State) :
    (s.report q).exc = s.exc ∨ (s.report q).exc = (State.syncTimer { s with exc := s.exc.create q s.timebase }).exc := by
  unfold State.report State.request
  split
  · right
    dsimp only
    split <;> rfl
  · exact .inl rfl

theorem report_lawful {s : State} (h : s.exc.lawful) (q : Request) : (s.report q).exc.lawful := by
  rcases request_exc q s with he | he
  · rw [he]; exact h
  · rw [he]; exact (create_lawful h q s.timebase).congr rfl rfl

/-- A request leaves the timer as it must be, if it was. -/
theorem timerLaw_syncTimer (s : State) : TimerLaw s.syncTimer := by
  unfold TimerLaw State.syncTimer
  dsimp only
  by_cases h : s.exc.pendingRecords ≠ [] ∧ s.claim.isSome
  · rw [if_pos h]
    exact iff_of_true rfl h
  · rw [if_neg h]
    exact iff_of_false (by simp) h

/-- The timer's law looks at the exception unit and at whether there is a holder. -/
theorem timerLaw_of {s t : State} (h : TimerLaw s) (hs : t.exc.slots = s.exc.slots)
    (hc : t.exc.creation = s.exc.creation) (hr : t.exc.retry.isSome = s.exc.retry.isSome)
    (hk : t.claim.isSome = s.claim.isSome) : TimerLaw t := by
  have hp : t.exc.pendingRecords = s.exc.pendingRecords := by
    have : t.exc.slot = s.exc.slot := funext fun i => by rw [ExcUnit.slot, ExcUnit.slot, hs]
    rw [ExcUnit.pendingRecords, ExcUnit.pendingRecords, ExcUnit.records, ExcUnit.records, this, hc]
  unfold TimerLaw
  rw [hr, hp, hk]
  exact h

theorem report_timerLaw {s : State} (h : TimerLaw s) (q : Request) : TimerLaw (s.report q) := by
  rcases request_exc q s with he | he
  · exact timerLaw_of h (by rw [he]) (by rw [he]) (by rw [he]) (by simp)
  · refine timerLaw_of (timerLaw_syncTimer { s with exc := s.exc.create q s.timebase }) ?_ ?_ ?_ ?_
    · rw [he]
    · rw [he]
    · rw [he]
    · simp

/-- An operation's reports: the exception unit goes over as some reports of other states would take it. -/
inductive Reported (s : State) : State → Prop
  | same {t : State} (he : t.exc = s.exc) (hc : t.claim = s.claim) : Reported s t
  | report (u : State) (q : Request) (he : u.exc = s.exc) (hc : u.claim = s.claim) {t : State}
      (ht : t.exc = (u.report q).exc) (hk : t.claim = s.claim) : Reported s t

theorem Reported.lawful {s t : State} (h : Reported s t) (hs : s.exc.lawful) : t.exc.lawful := by
  cases h with
  | same he hc => rw [he]; exact hs
  | report u q he hc ht hk => rw [ht]; exact report_lawful (he ▸ hs) q

theorem Reported.timerLaw {s t : State} (h : Reported s t) (hs : TimerLaw s) : TimerLaw t := by
  cases h with
  | same he hc => exact timerLaw_of hs (by rw [he]) (by rw [he]) (by rw [he]) (by rw [hc])
  | report u q he hc ht hk =>
    have hu : TimerLaw u := timerLaw_of hs (by rw [he]) (by rw [he]) (by rw [he]) (by rw [hc])
    exact timerLaw_of (report_timerLaw hu q) (by rw [ht]) (by rw [ht]) (by rw [ht]) (by rw [hk, report_claim, hc])

theorem report_reported (q : Request) (s : State) : Reported s (s.report q) := .report s q rfl rfl rfl (by simp)

theorem detect_reported (x : Location) (p : Port) (d : Option DequeNo) (m : Option Summary) (s : State) :
    Reported s (s.detect x p d m).2 := by
  unfold State.detect
  dsimp only
  split
  · exact Reported.report (s := s) { s with check := s.check.note x } (checkRequest x p d m) rfl rfl rfl
      (report_claim (checkRequest x p d m) { s with check := s.check.note x })
  · exact .same rfl rfl

theorem arrive_reported (d : DequeNo) (r : RecordNo) (e : Insertion) (s : State) : Reported s (s.arrive d r e).2 := by
  rcases arrive_cases d r e s with h | ⟨-, -, ⟨-, h⟩ | ⟨v, rest, -, h⟩⟩
  · exact .same (by rw [h]) (by rw [h])
  · refine .same ?_ (by simp)
    rw [h]
    split <;> simp
  · refine .report s { code := .shed, port := (s.deque d).config.binding.port?, deque := some d, summary := s.summaryOf v }
      rfl rfl ?_ (by simp)
    rw [h, State.shedInto]
    simp only [addRef_exc, release_exc, setDeque_exc]

theorem takeFrom_reported (p : Port) (c : Choice) (s : State) : Reported s (s.takeFrom p c) := by
  simp only [State.takeFrom]
  split
  · exact .same rfl rfl
  · rename_i r rest hr
    unfold State.sendOrDrop
    split
    · refine .report _ _ ?_ ?_ (release_exc ..) ?_ <;> simp
    · exact .same (by simp) (by simp)

/-- An exception unit without records. -/
theorem resetExc_lawful : resetExc.lawful :=
  ⟨List.nodup_nil, fun i => by simp [resetExc, ExcUnit.slot], fun i j a b ha => by simp [resetExc, ExcUnit.slot] at ha⟩

theorem resetTraffic_exc (s : State) : ∃ r, s.resetTraffic.exc = { s.exc.unnotify with building := none, retry := r } := by
  obtain ⟨x, n, h, -⟩ := resetFrames_shape s
  exact ⟨_, by rw [State.resetTraffic, h]; rfl⟩

theorem resetFull_exc (s : State) : s.resetFull.exc = resetExc ∧ s.resetFull.claim = none := by
  obtain ⟨x, n, h, -⟩ := resetFull_shape s
  rw [h]
  exact ⟨rfl, rfl⟩

theorem move_excLawful {s t : State} (hs : s.exc.lawful) (h : Move s t) : t.exc.lawful := by
  cases h with
  | report q => exact (report_reported q s).lawful hs
  | detect x p d m => exact (detect_reported x p d m s).lawful hs
  | arrive d r e hr => exact (arrive_reported d r e s).lawful hs
  | takeFrom p c ht hu => exact (takeFrom_reported p c s).lawful hs
  | setReporting m l n => exact hs.congr rfl rfl
  | acknowledge a => exact (hs.retain fun r => !atOrBefore a r.seq).congr rfl rfl
  | takeClaim j lease hc =>
    rw [takeClaim_eq]
    exact (report_lawful (s := { s with claim := some _ }) hs _).congr rfl rfl
  | clearClaim k hk =>
    refine hs.congr ?_ ?_ <;> simp [State.clearClaim, State.syncTimer]
  | retry x hr => exact hs.congr rfl rfl
  | notify seqs =>
    refine ExcUnit.lawful.congr (hs.mapped (v := s.exc.notify seqs) (f := fun r => if r.seq ∈ seqs then
      { r with mark := .notified } else r) (fun r => ?_) (notify_slot _ _) rfl) rfl rfl
    split <;> rfl
  | dropNotice n hb => refine hs.congr ?_ ?_ <;> simp [State.dropNotice]
  | buildNotice h rs r t dest seqs hb hl ht =>
    obtain ⟨rest, -, -, rfl⟩ := build_granted ht
    exact hs.congr rfl rfl
  | buildReply j status h r t he ht =>
    obtain ⟨rest, -, -, rfl⟩ := build_granted ht
    exact hs
  | storeInNewCell p x b o w0 w1 w2 tl t hx hn hw hb ht =>
    obtain ⟨c, rest, f, -, -, -, rfl⟩ := takeCell_granted ht
    exact hs.congr (by simp) (by simp)
  | resetTraffic e f ho hr hl =>
    obtain ⟨r, h⟩ := resetTraffic_exc s
    dsimp only
    rw [h]
    exact (hs.mapped (v := s.exc.unnotify) (f := fun r => { r with mark := .pending }) (fun _ => rfl) (unnotify_slot _)
      rfl).congr rfl rfl
  | resetFull e f ho hr hl =>
    dsimp only
    rw [(resetFull_exc s).1]
    exact resetExc_lawful
  | hardReset straps => exact resetExc_lawful
  | _ => exact hs.congr (by simp) (by simp)

theorem updateReplyMemory_claimed (j : Job) (new : Option RecordNo) (s : State) :
    (s.updateReplyMemory j new).claim.isSome = s.claim.isSome := by
  unfold State.updateReplyMemory
  split
  · rename_i k hk _
    split
    · rw [hk]; rfl
    · rfl
  · rfl

theorem move_timerLaw {s t : State} (hs : TimerLaw s) (h : Move s t) : TimerLaw t := by
  cases h with
  | report q => exact (report_reported q s).timerLaw hs
  | detect x p d m => exact (detect_reported x p d m s).timerLaw hs
  | arrive d r e hr => exact (arrive_reported d r e s).timerLaw hs
  | takeFrom p c ht hu => exact (takeFrom_reported p c s).timerLaw hs
  | setReporting m l n => exact timerLaw_of hs rfl rfl rfl rfl
  | acknowledge a => exact timerLaw_syncTimer _
  | takeClaim j lease hc =>
    exact timerLaw_of (timerLaw_syncTimer (State.report _ { s with claim := some _ })) rfl rfl rfl rfl
  | claim k k' hk hm => exact timerLaw_of hs rfl rfl rfl (by rw [hk]; rfl)
  | clearClaim k hk => exact timerLaw_syncTimer _
  | replyMemory j new hn =>
    exact timerLaw_of hs (by simp) (by simp) (by simp) (updateReplyMemory_claimed j new s)
  | retry x hr => exact timerLaw_of hs rfl rfl hr.symm rfl
  | notify seqs => exact timerLaw_syncTimer _
  | dropNotice n hb => refine timerLaw_of hs ?_ ?_ ?_ ?_ <;> simp [State.dropNotice]
  | buildNotice h rs r t dest seqs hb hl ht =>
    obtain ⟨rest, -, -, rfl⟩ := build_granted ht
    exact timerLaw_of hs rfl rfl rfl rfl
  | buildReply j status h r t he ht =>
    obtain ⟨rest, -, -, rfl⟩ := build_granted ht
    exact hs
  | storeInNewCell p x b o w0 w1 w2 tl t hx hn hw hb ht =>
    obtain ⟨c, rest, f, -, -, -, rfl⟩ := takeCell_granted ht
    exact timerLaw_of hs (by simp) (by simp) (by simp) (by simp)
  | resetTraffic e f ho hr hl => exact timerLaw_of (s := s.resetTraffic) (timerLaw_syncTimer _) rfl rfl rfl rfl
  | resetFull e f ho hr hl =>
    have h := resetFull_exc s
    unfold TimerLaw
    dsimp only
    rw [h.1, h.2]
    simp [resetExc]
  | hardReset straps => exact iff_of_false (by simp [State.reset, resetExc]) (by simp [State.reset])
  | _ => exact timerLaw_of hs (by simp) (by simp) (by simp) (by simp)

theorem handOver_unchanged {s t : State} (h : HandOver s t) : t.exc = s.exc ∧ t.claim = s.claim ∧ t.check = s.check ∧
    t.engine = s.engine := by
  obtain ⟨p, x, f, h, -, -, -, -⟩ := h
  exact ⟨rfl, rfl, rfl, rfl⟩

/-! ## The check record (R187) -/

theorem move_checkLaw (s t : State) (hs : CheckLaw s) (h : Move s t) : CheckLaw t := by
  have same : ∀ {u : State}, u.check = s.check → CheckLaw u := fun hu => by rw [CheckLaw, hu]; exact hs
  cases h with
  | detect x p d m => exact detect_checkLaw hs x p d m
  | setReporting m l n => exact hs
  | clearChecks => rfl
  | buildNotice h rs r t dest seqs hb hl ht =>
    obtain ⟨rest, -, -, rfl⟩ := build_granted ht
    exact hs
  | buildReply j status h r t he ht =>
    obtain ⟨rest, -, -, rfl⟩ := build_granted ht
    exact hs
  | storeInNewCell p x b o w0 w1 w2 tl t hx hn hw hb ht =>
    obtain ⟨c, rest, f, -, -, -, rfl⟩ := takeCell_granted ht
    exact same (by simp)
  | resetTraffic e f ho hr hl =>
    obtain ⟨x, n, h, -⟩ := resetFrames_shape s
    exact same (by simp [State.resetTraffic, h])
  | resetFull e f ho hr hl =>
    obtain ⟨x, n, h, -⟩ := resetFull_shape s
    rw [h]
    rfl
  | hardReset straps => rfl
  | _ => exact same (by simp)

/-- Settles O60: every change of the exception unit keeps its lists and sets the timer; a detection moves flag and
location together. -/
theorem reportingLawsKept : Obligations.ReportingLawsKept := by
  unfold Obligations.ReportingLawsKept
  refine ⟨fun s t he ht h => ?exceptions, fun s t hs h => ?checks⟩
  case exceptions =>
    obtain ⟨h1, h2⟩ := (step_reaches h).keeps (I := fun s => s.exc.lawful ∧ TimerLaw s)
      (fun s t hs hm => ⟨move_excLawful hs.1 hm, move_timerLaw hs.2 hm⟩)
      (fun s t hs hm => by
        obtain ⟨e1, e2, -, -⟩ := handOver_unchanged hm
        exact ⟨e1 ▸ hs.1, timerLaw_of hs.2 (by rw [e1]) (by rw [e1]) (by rw [e1]) (by rw [e2])⟩)
      ⟨exceptionLaw_iff.mp he, ht⟩
    exact ⟨exceptionLaw_iff.mpr h1, h2⟩
  case checks =>
    refine (step_reaches h).keeps move_checkLaw (fun s t hs hm => ?_) hs
    rw [CheckLaw, (handOver_unchanged hm).2.2.1]
    exact hs

/-! ## The engine's lists (R121, R126) -/

theorem move_engineLaw {s t : State} (he : ExceptionLaw s) (hs : EngineLaw s) (h : Move s t) : EngineLaw t := by
  have same : ∀ {u : State}, u.engine = s.engine → EngineLaw u := fun hu => by rw [EngineLaw, hu]; exact hs
  have idle : ∀ {u : State}, u.engine = .idle → EngineLaw u := fun hu => by rw [EngineLaw, hu]; trivial
  cases h with
  | takeOrder r rest j status next _ hq hj hr hst hn =>
    simp only [EngineLaw, if_neg hst]
    exact hr
  | engine e hf hr hl => exact hl he hs
  | buildNotice h rs r t dest seqs hb hl ht =>
    obtain ⟨rest, -, -, rfl⟩ := build_granted ht
    exact hs
  | buildReply j status h r t hen ht =>
    simp only [EngineLaw, hen] at hs ⊢
    exact hs
  | storeInNewCell p x b o w0 w1 w2 tl t hx hn hw hb ht =>
    obtain ⟨c, rest, f, -, -, -, rfl⟩ := takeCell_granted ht
    exact same (by simp)
  | releaseStep j status next hen => exact idle (releaseStep_engine ..)
  | resetTraffic e f ho hr hl => exact hl he hs
  | resetFull e f ho hr hl => exact hl he hs
  | hardReset straps => exact idle rfl
  | _ => exact same (by simp)

/-! ## HELD frames (R54, R59) -/

/-- The stored length is in range, and the frame has exactly the cells that it needs. -/
def HeldFrame.sized (h : HeldFrame) : Prop := 8 ≤ h.length ∧ h.length ≤ 1024 ∧ h.cells.length = cellsFor h.length

theorem heldLaw_iff {s : State} : HeldLaw s ↔ ∀ r h, s.record r = .held h → h.sized := by
  refine forall_congr' fun r => ?_
  cases s.record r <;> simp [HeldFrame.sized]

theorem poolMove_heldLaw {handed : Prop} {s t : State} (he : EngineLaw s)
    (hr : handed → ∀ p x f, (s.port p).receiver = .receiving x → s.record x.record = .receiving f → x.fits f.cells)
    (hs : ∀ r h, s.record r = .held h → h.sized) (h : PoolMove handed s t) : ∀ r h, t.record r = .held h → h.sized := by
  have written : ∀ {k z}, (∀ y, z = .held y → y.sized) → (∀ r, t.record r = if r = k then z else s.record r) →
      ∀ r h, t.record r = .held h → h.sized := by
    intro k z hz ht r y hy
    rw [ht] at hy
    split at hy
    · exact hz y hy
    · exact hs r y hy
  cases h with
  | keeps h hk =>
    intro r y hy
    obtain ⟨x, hx, hc, hl⟩ := h.held r y hy
    have := hs r x hx
    rwa [HeldFrame.sized, ← hc, ← hl] at this
  | receiver p y h hp hem hy => exact fun r y hy => hs r y (by rwa [h.record] at hy)
  | receive p x x' h hx hp hrec hf => exact fun r y hy => hs r y (by rwa [h.record] at hy)
  | newCell p x x' f c rest hx hrec hf hc h hp hl =>
    exact written (z := .receiving _) (fun _ h => nomatch h) fun r => (h.record r).trans (setRecord_record ..)
  | beginFrame p r rest hf hem hu h hp =>
    exact written (z := .receiving _) (fun _ h => nomatch h) fun r => (h.record r).trans (setRecord_record ..)
  | giveBack p x y hx hy h hp =>
    intro r z hz
    rw [h.record] at hz
    unfold State.returnReceived at hz
    split at hz
    · rw [freeFrame_record] at hz
      split at hz
      · cases hz
      · exact hs r z hz
    · exact hs r z hz
  | build h payload r u hb hu hk hl =>
    obtain ⟨rest, -, hc, rfl⟩ := build_granted hb
    refine written (fun y hy => ?_) fun k => (hu.record k).trans (setRecord_record ..)
    cases hy
    exact ⟨Nat.le_add_right .., hl he, by simpa using hc⟩
  | clear hc hf hrec hem => exact fun r y hy => by rw [hrec] at hy; cases hy
  | handOver p x f h ho hx hf ht hp hc hn hl hb =>
    obtain ⟨h1, -, h3⟩ := hr ho p x f hx hf
    refine written (fun y hy => ?_) fun k => (ht.record k).trans (setRecord_record ..)
    cases hy
    refine ⟨?_, ?_, ?_⟩
    · rw [hl]; omega
    · rw [hl]; omega
    · rw [hc, hl, h3]

/-- What the laws of this group need of a state, and every move keeps. -/
structure Listed (s : State) : Prop where
  engine : EngineLaw s
  exceptions : ExceptionLaw s
  held : ∀ r h, s.record r = .held h → h.sized

theorem move_listed (s t : State) (hs : Listed s) (h : Move s t) : Listed t where
  engine := move_engineLaw hs.exceptions hs.engine h
  exceptions := exceptionLaw_iff.mpr (move_excLawful (exceptionLaw_iff.mp hs.exceptions) h)
  held := poolMove_heldLaw hs.engine (fun h => h.elim) hs.held (move_poolMove h)

theorem handOver_listed {s t : State} (hs : Listed s)
    (hr : ∀ p x f, (s.port p).receiver = .receiving x → s.record x.record = .receiving f → x.fits f.cells)
    (h : HandOver s t) : Listed t := by
  obtain ⟨e1, -, -, e4⟩ := handOver_unchanged h
  exact {
    engine := by rw [EngineLaw, e4]; exact hs.engine
    exceptions := by rw [exceptionLaw_iff, e1]; exact exceptionLaw_iff.mp hs.exceptions
    held := poolMove_heldLaw hs.engine (fun _ => hr) hs.held (handOver_poolMove h) }

/-- Settles O59: what is built fits in a frame since the engine's list and the notice are bounded, and what is handed
over was received within the receiver's bounds, which no move before the hand-over touches. -/
theorem engineAndFrameLawsKept : Obligations.EngineAndFrameLawsKept := by
  unfold Obligations.EngineAndFrameLawsKept
  intro s t he hx hr hh h
  have hs : Listed s := ⟨he, hx, heldLaw_iff.mp hh⟩
  have fits : ∀ u, SameReceptions s u →
      ∀ p x f, (u.port p).receiver = .receiving x → u.record x.record = .receiving f → x.fits f.cells := by
    intro u hu p x f hx hf
    rw [hu.2] at hx
    obtain ⟨-, g, hg, -, hfit⟩ := receiverLaw_iff.mp hr p x hx
    have : u.record x.record = s.record x.record := by rw [State.record, State.record, hu.1]
    rw [this, hg] at hf
    cases hf
    exact hfit
  have ht : Listed t := by
    rcases step_reaches h with hm | ⟨u, v, h1, hsame, h2, h3⟩
    · exact hm.keeps move_listed hs
    · exact h3.keeps move_listed (handOver_listed (h1.keeps move_listed hs) (fits u hsame) h2)
  exact ⟨ht.engine, heldLaw_iff.mpr ht.held⟩

/-! ## The laws at reset -/

theorem reset_eq : State.reset = afterHardReset 0 0 0 [] := by
  simp only [afterHardReset, State.reset]

/-- Settles O52: right after hard reset nothing is received, sent, queued, listed or recorded. -/
theorem lawsHoldAtReset : Obligations.LawsHoldAtReset := by
  have hrec (r : RecordNo) : State.reset.record r = .free := by rw [reset_eq]; exact afterHardReset_record ..
  have hport (p : Port) : State.reset.port p = resetPort := by rw [reset_eq]; exact afterHardReset_port ..
  have hdq (d : DequeNo) : State.reset.deque d = resetDeque d := by rw [reset_eq]; exact afterHardReset_deque ..
  have hbal : Balanced State.reset := by rw [reset_eq]; exact afterHardReset_balanced 0 0 0 []
  unfold Obligations.LawsHoldAtReset
  refine ⟨?memory, ?station, ?table, ?deques, ?fixed, ?pool, ?count, ?held, ?receiver, ?owner, ?transmitter, ?unread, ?run,
    ?admission, ?waiting, ?engine, ?exceptions, ?timer, ?check⟩
  case memory => exact ⟨List.Pairwise.nil, fun _ h => nomatch h⟩
  case station => exact strapAddress_ne 0
  case table => exact tableLaw_of_free rfl
  case deques => exact dequeLaw_of_empty fun d => by rw [hdq]; rfl
  case fixed => exact fixedLaw_of_reset rfl
  case pool => exact poolLaw_of_clear (by dsimp only [State.reset]) (by dsimp only [State.reset]) hrec
  case count => exact countLaw_iff.mpr ⟨fun r h hr => (by rw [hrec] at hr; cases hr), hbal⟩
  case held => exact heldLaw_iff.mpr fun r h hr => by rw [hrec] at hr; cases hr
  case receiver => exact receiverLaw_iff.mpr fun p x hx => by rw [hport] at hx; cases hx
  case owner => exact ownerLaw_iff.mpr fun r f hr => by rw [hrec] at hr; cases hr
  case transmitter => exact fun p _ => by rw [hport]; rfl
  case unread => exact unreadLaw_iff.mpr fun p r d u hu => by rw [hport] at hu; cases hu
  case run => exact fun p => by rw [hport]; trivial
  case admission => exact fun p => by rw [hport]; trivial
  case waiting => exact fun p h => by rw [hport] at h; exact absurd rfl h
  case engine => trivial
  case exceptions => exact exceptionLaw_iff.mpr resetExc_lawful
  case timer => exact iff_of_false (by simp [State.reset, resetExc]) (by simp [State.reset])
  case check => rfl

end Sys2Proof.Machine
end

section
/-! SUPPORT. The families of the queue, the reset, the links and the receivers. -/

namespace Sys2Proof.Machine

open Sys2Proof

/-! ## Queue, time and reset (R1, R2) -/

/-- Settles O1: it is how a step is defined. -/
theorem stepRunsTheFrontCommand : Obligations.StepRunsTheFrontCommand := by
  unfold Obligations.StepRunsTheFrontCommand
  exact fun c rest s => rfl

theorem mem_leaseDue {s : State} {c : Instr} :
    c ∈ s.leaseDue ↔ c = .leaseExpiry ∧ ∃ k, s.claim = some k ∧ k.expiry = s.timebase := by
  unfold State.leaseDue
  cases hk : s.claim with
  | none => simp
  | some k => by_cases h : k.expiry = s.timebase <;> simp [h]

theorem mem_retryDue {s : State} {c : Instr} :
    c ∈ s.retryDue ↔ c = .retryTimerExpiry ∧ s.exc.retry = some s.timebase := by
  unfold State.retryDue
  by_cases h : s.exc.retry = some s.timebase <;> simp [h]

theorem mem_quietDue {s : State} {c : Instr} {p : Port} :
    c ∈ s.quietDue p ↔ c = .endOfQuietPeriod p ∧ (s.port p).quietUntil = some s.timebase := by
  unfold State.quietDue
  by_cases h : (s.port p).quietUntil = some s.timebase <;> simp [h]

theorem mem_dueEvents {s : State} {c : Instr} :
    c ∈ s.dueEvents ↔ (c = .leaseExpiry ∧ ∃ k, s.claim = some k ∧ k.expiry = s.timebase) ∨
      (c = .retryTimerExpiry ∧ s.exc.retry = some s.timebase) ∨
      ∃ p, c = .endOfQuietPeriod p ∧ (s.port p).quietUntil = some s.timebase := by
  simp only [State.dueEvents, List.mem_append, mem_leaseDue, mem_retryDue, mem_quietDue]
  constructor
  · rintro ((((h | h) | h) | h) | h)
    · exact .inl h
    · exact .inr (.inl h)
    · exact .inr (.inr ⟨_, h⟩)
    · exact .inr (.inr ⟨_, h⟩)
    · exact .inr (.inr ⟨_, h⟩)
  · rintro (h | h | ⟨p, h⟩)
    · exact .inl (.inl (.inl (.inl h)))
    · exact .inl (.inl (.inl (.inr h)))
    · cases p
      · exact .inl (.inl (.inr h))
      · exact .inl (.inr h)
      · exact .inr h

/-- With every unit IDLE and nothing waiting, no work is open but what is owed. -/
theorem openWork_of_quiet {s : State} (hf : s.follow = [])
    (h : ∀ p, (s.port p).admission = .idle ∧ (s.port p).lineWaits = []) : s.openWork = [] := by
  refine List.eq_nil_iff_forall_not_mem.mpr fun w hw => ?_
  rcases mem_openWork.mp hw with ⟨c, hc, -⟩ | ⟨p, a, ha, -⟩ | ⟨p, g, rest, hl, -⟩
  · rw [hf] at hc; cases hc
  · rw [(h p).1] at ha; cases ha
  · rw [(h p).2] at hl; cases hl

theorem endsDue_of_quiet {s : State} (h : ∀ p, (s.port p).lineWaits = []) : s.endsDue = [] := by
  refine List.eq_nil_iff_forall_not_mem.mpr fun w hw => ?_
  obtain ⟨p, ⟨-, hp⟩, -⟩ := mem_endsDue.mp hw
  rw [h p] at hp
  cases hp

/-- Settles O2: what a tick queues is read off `dueEvents`; the rest is the case split of what a block does by itself. -/
theorem emptyQueueStep : Obligations.EmptyQueueStep := by
  unfold Obligations.EmptyQueueStep
  refine ⟨?tick, ?quiet, ?oneEnd, ?work⟩
  case tick => exact fun s => ⟨_, rfl, fun c => mem_dueEvents (s := { s with timebase := s.timebase + 1 })⟩
  case quiet =>
    intro s hp hf h
    rw [step_of_empty hp]
    exact idle_of_none (endsDue_of_quiet fun p => (h p).2) (openWork_of_quiet hf h)
  case oneEnd =>
    intro s p hp he ho
    rw [step_of_empty hp]
    exact idle_of_oneEndDue he ho
  case work =>
    intro s hp u
    rw [step_of_empty hp]
    refine ⟨fun p he => idle_of_endDue he, fun h => ?_⟩
    rcases idle_cases h with h1 | h1 | h1 | ⟨p, a, ha, h1⟩ | h1
    · exact .inl h1
    · exact .inr (.inl h1)
    · exact .inr (.inr (.inl h1))
    · exact .inr (.inr (.inr (.inl ⟨p, by rw [ha]; simp, h1⟩)))
    · exact .inr (.inr (.inr (.inr h1)))

/-- Settles O4: the command is one record of the model, and so is the state after it. -/
theorem hardReset : Obligations.HardReset := by
  unfold Obligations.HardReset
  have hport (p : Port) : State.reset.port p = resetPort := by rw [reset_eq]; exact afterHardReset_port ..
  have hdq (d : DequeNo) : State.reset.deque d = resetDeque d := by rw [reset_eq]; exact afterHardReset_deque ..
  have hother : ∀ d : DequeNo, 2 ≤ d.val → d.val ≤ 27 →
      resetDeque d = ⟨⟨.unbound, some 0, 16, .refuse, 0, some false⟩, .detached, []⟩ := by decide
  refine ⟨fun straps s => rfl, rfl, fun i => ?_, rfl, ?_, ?_, fun d h2 h27 => ?_, ?_, fun p => ?_, ?_, ?_, fun r => ?_,
    fun p => ?_, rfl, rfl, fun i => ?_, rfl, rfl, rfl, rfl, rfl, rfl, rfl⟩
  · rw [reset_eq]; exact afterHardReset_entry ..
  · exact hdq 0
  · exact hdq 1
  · rw [hdq]; exact hother d h2 h27
  · exact hdq 28
  · rw [hdq]; cases p <;> rfl
  · simp only [State.reset, allCells]
  · simp only [State.reset, allRecords]
  · rw [reset_eq]; exact afterHardReset_record ..
  · rw [hport]
    refine ⟨rfl, rfl, rfl, rfl, rfl, rfl, rfl, rfl, fun v => ?_⟩
    rw [State.marker, hport]
    simp [resetPort]
  · simp [State.reset, resetExc, ExcUnit.slot]

/-! ### No command stops, and none touches the queue -/

@[simp] theorem retrain_pending (p : Port) (s : State) : (s.retrain p).pending = s.pending := by
  unfold State.retrain
  dsimp only
  split <;> simp

/-- An order's own checks and effect leave the queue of commands as it is. -/
def Body.keepsQueue (body : Body) : Prop := ∀ j s, (body j s).2.pending = s.pending

theorem refuse_keepsQueue (status : Status) : Body.keepsQueue fun _ s => refuse status s := fun _ _ => rfl

theorem badLength_keepsQueue : badLength.keepsQueue := fun _ _ => rfl

theorem notBroadcast_keepsQueue {body : Body} (h : body.keepsQueue) : (notBroadcast body).keepsQueue := by
  intro j s
  unfold notBroadcast
  split
  · rfl
  · exact h j s

theorem holderOnly_keepsQueue {body : Body} (h : body.keepsQueue) : (holderOnly body).keepsQueue := by
  refine notBroadcast_keepsQueue fun j s => ?_
  split
  · exact h j s
  · rfl

theorem runBody_pending (j : Job) (code : Byte) {body : Body} (h : body.keepsQueue) (s : State) :
    (s.runBody j code body).pending = s.pending := by
  have hb := h j s
  unfold State.runBody
  split <;> simp_all

theorem deal_pending (j : Job) (code : Byte) (greatest : Nat) {body : Body} (h : body.keepsQueue) (s : State) :
    (s.deal j code greatest body).pending = s.pending := by
  unfold State.deal
  split
  case h_4 => split <;> simp [runBody_pending, h]
  all_goals simp

/-- An order command leaves the queue as its body does. -/
theorem dealOrder_pending (o : Order) (greatest : Nat) {body : Body} (h : body.keepsQueue) (s : State) :
    (s.dealOrder o greatest body).pending = s.pending := by
  unfold State.dealOrder
  dsimp only
  split
  · split
    · rw [deal_pending _ _ _ h, settle_pending]
    · rfl
  · rfl

/-! #### The bodies of the orders -/

theorem identifyBody_keepsQueue (ops : List Byte) : (identifyBody ops).keepsQueue := by
  intro j s
  unfold identifyBody
  split <;> rfl

theorem claimBody_keepsQueue (ops : List Byte) : (claimBody ops).keepsQueue := by
  unfold claimBody
  split
  · refine notBroadcast_keepsQueue fun j s => ?_
    split
    · rfl
    · split
      · simp [accept]
      · split <;> rfl
  · exact badLength_keepsQueue

theorem renewBody_keepsQueue (ops : List Byte) : (renewBody ops).keepsQueue := by
  unfold renewBody
  split
  · refine holderOnly_keepsQueue fun j s => ?_
    split
    · rfl
    · split <;> rfl
  · exact badLength_keepsQueue

theorem releaseBody_keepsQueue (ops : List Byte) : (releaseBody ops).keepsQueue := by
  unfold releaseBody
  split
  · refine holderOnly_keepsQueue fun j s => ?_
    split
    · simp [accept]
    · rfl
  · exact badLength_keepsQueue

theorem setStationBody_keepsQueue (ops : List Byte) : (setStationBody ops).keepsQueue := by
  unfold setStationBody
  split
  · refine holderOnly_keepsQueue fun j s => ?_
    split <;> rfl
  · exact badLength_keepsQueue

@[simp] theorem checkEntry_pending (i : EntryNo) (p : Port) (s : State) : (s.checkEntry i p).pending = s.pending := by
  unfold State.checkEntry
  split <;> simp

theorem readEntryBody_keepsQueue (ops : List Byte) : (readEntryBody ops).keepsQueue := by
  intro j s
  unfold readEntryBody
  split
  · dsimp only
    split
    · simp [accept]
    · rfl
  · rfl

theorem writeEntryBody_keepsQueue (ops : List Byte) : (writeEntryBody ops).keepsQueue := by
  unfold writeEntryBody
  split
  · refine holderOnly_keepsQueue fun j s => ?_
    dsimp only [State.writeEntry]
    split
    · rfl
    · rfl
    · split
      · rfl
      · split <;> rfl
  · exact badLength_keepsQueue

theorem freeEntryBody_keepsQueue (ops : List Byte) : (freeEntryBody ops).keepsQueue := by
  unfold freeEntryBody
  split
  · refine holderOnly_keepsQueue fun j s => ?_
    dsimp only [State.freeEntry]
    split
    · rfl
    · split <;> rfl
  · exact badLength_keepsQueue

theorem findEntryBody_keepsQueue (ops : List Byte) : (findEntryBody ops).keepsQueue := by
  intro j s
  unfold findEntryBody
  split
  · dsimp only
    split
    · rfl
    · simp [accept]
    · rfl
  · rfl

theorem readDefaultBody_keepsQueue (ops : List Byte) : (readDefaultBody ops).keepsQueue := by
  intro j s
  unfold readDefaultBody
  split
  · split <;> rfl
  · rfl

theorem writeDefaultBody_keepsQueue (ops : List Byte) : (writeDefaultBody ops).keepsQueue := by
  unfold writeDefaultBody
  split
  · refine holderOnly_keepsQueue fun j s => ?_
    dsimp only [State.writeDefault]
    split
    · rfl
    · rfl
    · split <;> rfl
  · exact badLength_keepsQueue

theorem readDequeBody_keepsQueue (ops : List Byte) : (readDequeBody ops).keepsQueue := by
  intro j s
  unfold readDequeBody
  split
  · split <;> rfl
  · rfl

theorem setDequeBody_keepsQueue (ops : List Byte) : (setDequeBody ops).keepsQueue := by
  unfold setDequeBody
  split
  · refine holderOnly_keepsQueue fun j s => ?_
    dsimp only
    split
    · rfl
    · rfl
    · split
      · rfl
      · split <;> rfl
  · exact badLength_keepsQueue

theorem stateOrder_keepsQueue (ops : List Byte) (allowed : Deque → Bool) {change : DequeNo → State → State}
    (h : ∀ d s, (change d s).pending = s.pending) : (stateOrder ops allowed change).keepsQueue := by
  unfold stateOrder
  split
  · refine holderOnly_keepsQueue fun j s => ?_
    split
    · rfl
    · split
      · rfl
      · split
        · exact h _ s
        · rfl
  · exact badLength_keepsQueue

theorem startDrain_pending (d : DequeNo) (target : DrainTarget) (s : State) :
    (s.startDrain d target).2.pending = s.pending := by
  unfold State.startDrain
  split
  · dsimp only [accept]
    split <;> simp
  · rfl

theorem drainDequeBody_keepsQueue (ops : List Byte) : (drainDequeBody ops).keepsQueue := by
  unfold drainDequeBody
  split
  · refine holderOnly_keepsQueue fun j s => ?_
    split
    · rfl
    · rfl
    · split
      · rfl
      · split
        · exact startDrain_pending ..
        · rfl
  · exact badLength_keepsQueue

theorem readPortBody_keepsQueue (ops : List Byte) : (readPortBody ops).keepsQueue := by
  intro j s
  unfold readPortBody
  split
  · split <;> rfl
  · rfl

theorem portOrder_keepsQueue (ops : List Byte) {effect : Port → State → State}
    (h : ∀ p s, (effect p s).pending = s.pending) : (portOrder ops effect).keepsQueue := by
  unfold portOrder
  split
  · refine holderOnly_keepsQueue fun j s => ?_
    split
    · exact h _ s
    · rfl
  · exact badLength_keepsQueue

theorem readExceptionsBody_keepsQueue (ops : List Byte) : (readExceptionsBody ops).keepsQueue := by
  intro j s
  unfold readExceptionsBody
  split <;> rfl

theorem ackExceptionsBody_keepsQueue (ops : List Byte) : (ackExceptionsBody ops).keepsQueue := by
  unfold ackExceptionsBody
  split
  · exact holderOnly_keepsQueue fun _ _ => by simp [accept]
  · exact badLength_keepsQueue

theorem setReportingBody_keepsQueue (ops : List Byte) : (setReportingBody ops).keepsQueue := by
  unfold setReportingBody
  split
  · refine holderOnly_keepsQueue fun j s => ?_
    split <;> rfl
  · exact badLength_keepsQueue

theorem readChecksBody_keepsQueue (ops : List Byte) : (readChecksBody ops).keepsQueue := by
  intro j s
  unfold readChecksBody
  split <;> rfl

theorem clearChecksBody_keepsQueue (ops : List Byte) : (clearChecksBody ops).keepsQueue := by
  unfold clearChecksBody
  split
  · exact holderOnly_keepsQueue fun _ _ => rfl
  · exact badLength_keepsQueue

theorem readPoolBody_keepsQueue (ops : List Byte) : (readPoolBody ops).keepsQueue := by
  intro j s
  unfold readPoolBody
  split <;> rfl

theorem resetTraffic_pending (s : State) : s.resetTraffic.pending = s.pending := by
  obtain ⟨x, n, h, -⟩ := resetFrames_shape s
  rw [State.resetTraffic, h, syncTimer_pending]

theorem resetFull_pending (s : State) : s.resetFull.pending = s.pending := by
  obtain ⟨x, n, h, -⟩ := resetFull_shape s
  rw [h]

theorem resetTrafficBody_keepsQueue (ops : List Byte) : (resetTrafficBody ops).keepsQueue := by
  unfold resetTrafficBody
  split
  · exact holderOnly_keepsQueue fun _ s => resetTraffic_pending s
  · exact badLength_keepsQueue

theorem resetFullBody_keepsQueue (ops : List Byte) : (resetFullBody ops).keepsQueue := by
  unfold resetFullBody
  split
  · exact holderOnly_keepsQueue fun _ s => resetFull_pending s
  · exact badLength_keepsQueue

/-! #### The engine's own events -/

theorem build_pending {h : Header} {payload : List Byte} {r : RecordNo} {s t : State}
    (ht : s.build h payload = some (r, t)) : t.pending = s.pending := by
  obtain ⟨rest, -, -, rfl⟩ := build_granted ht
  rfl

@[simp] theorem replyNext_pending (j : Job) (status : FrameStatus) (next : ReplyStep) (s : State) :
    (s.replyNext j status next).pending = s.pending := rfl

theorem buildStep_pending (j : Job) (status : FrameStatus) (s : State) :
    (s.buildStep j status).pending = s.pending := by
  unfold State.buildStep
  split
  · rename_i h
    rw [replyNext_pending, build_pending h]
  · simp

theorem releaseStep_pending (j : Job) (new : Option RecordNo) (s : State) :
    (s.releaseStep j new).pending = s.pending := by
  cases new <;> simp [State.releaseStep]

theorem replyStep_pending (j : Job) (status : FrameStatus) (next : ReplyStep) (s : State) :
    (s.replyStep j status next).pending = s.pending := by
  cases next with
  | build => exact buildStep_pending ..
  | memory new => exact updateReplyMemory_pending ..
  | placement r => exact placeReply_pending ..
  | release new => exact releaseStep_pending ..

theorem replayLost_pending (j : Job) (s : State) : (s.replayLost j).pending = s.pending := by
  unfold State.replayLost
  split
  · rename_i h
    simp [build_pending h]
  · simp

theorem replay_pending (j : Job) (s : State) : (s.replay j).pending = s.pending := by
  unfold State.replay
  split
  · rfl
  · dsimp only
    split
    · simp
    · rw [replayLost_pending]

theorem parse_pending (j : Job) (h : HeldFrame) (s : State) : (s.parse j h).pending = s.pending := by
  have hc := checkedReads_pending j.copy.port intake (some j.summary)
    (s.parseCells h (readStored h.cells s.mem 8 (h.length - 8))) s
  unfold State.parse
  dsimp only
  split
  · rename_i hr
    rw [hr] at hc
    exact (report_pending ..).trans hc
  · rename_i hr
    rw [hr] at hc
    split
    · exact (report_pending ..).trans hc
    · exact (advance_pending ..).trans hc

theorem engineTake_pending (s : State) : s.engineTake.pending = s.pending := by
  unfold State.engineTake
  split
  · split
    · split
      · dsimp only
        split
        · rw [replay_pending, setDeque_pending]
        · rw [parse_pending, setDeque_pending]
      · rfl
    · rfl
  · rfl

theorem drainRemoval_pending (d : DequeNo) (s : State) : (s.drainRemoval d).pending = s.pending := by
  unfold State.drainRemoval
  split <;> simp

/-! #### The other events -/

theorem deliveryAttempt_pending (s : State) : s.deliveryAttempt.pending = s.pending := by
  unfold State.deliveryAttempt
  split
  · split
    · unfold State.deliver
      dsimp only
      split
      · rename_i h
        exact (raise_pending ..).trans (build_pending h :)
      · simp
    · rfl
  · rfl

theorem readUpTo_pending (p : Port) (c : CellNo) (x : CellFault) (s : State) :
    (s.readUpTo p c x).pending = s.pending := by
  unfold State.readUpTo
  split
  · rfl
  · split <;> simp

/-- Every command goes on to a state with the queue it found. -/
theorem exec_pending (c : Instr) (s : State) : ∃ t, exec c s = .next t ∧ t.pending = s.pending := by
  have struck (us : List Upset) {t : State} (h : t.pending = (s.strike us).pending) :
      ∃ u, Host.Outcome.next (φ := Fault) (ρ := Refusal) t = .next u ∧ u.pending = s.pending :=
    ⟨_, rfl, h.trans (strike_pending us s)⟩
  have order {o : Order} {n : Nat} {body : Body} (h : body.keepsQueue) :
      ∃ u, Host.Outcome.next (φ := Fault) (ρ := Refusal) (s.dealOrder o n body) = .next u ∧ u.pending = s.pending :=
    ⟨_, rfl, dealOrder_pending o n h s⟩
  cases c with
  | hardReset straps => exact ⟨_, rfl, rfl⟩
  | signalDetected p => refine ⟨_, rfl, ?_⟩; split <;> rfl
  | lossOfSignal p => refine ⟨_, rfl, ?_⟩; split <;> simp
  | alignmentAchieved p =>
    refine ⟨_, rfl, ?_⟩
    split
    · split <;> simp
    · rfl
  | lossOfAlignment p =>
    refine ⟨_, rfl, ?_⟩
    split
    · split <;> simp
    · rfl
  | endOfQuietPeriod p =>
    dsimp only [exec, execEndOfQuietPeriod]
    split
    · refine ⟨_, rfl, ?_⟩
      split
      · split <;> rfl
      · rfl
    · exact ⟨_, rfl, rfl⟩
  | idleCodeGroup p =>
    refine ⟨_, rfl, ?_⟩
    split
    · rfl
    · split <;> simp
    · rfl
  | invalidCodeGroup p =>
    refine ⟨_, rfl, ?_⟩
    split
    · rfl
    · rfl
    · split <;> simp
  | startOfFrame p => exact ⟨_, rfl, lineGroup_pending ..⟩
  | dataByte p b => exact ⟨_, rfl, lineGroup_pending ..⟩
  | endOfFrame p us => exact struck us (lineGroup_pending ..)
  | takeAttempt p => exact ⟨_, rfl, takeAttempt_pending ..⟩
  | transmissionComplete p =>
    refine ⟨_, rfl, ?_⟩
    split
    · rfl
    · rename_i r d unread _
      have hc := readCells_pending p r d unread unread.length s
      split
      · rename_i h
        rwa [h] at hc
      · rename_i h
        rw [h] at hc
        simpa using hc
  | cellReadCorrected p c => exact ⟨_, rfl, readUpTo_pending ..⟩
  | poisonedEnd p c => exact ⟨_, rfl, readUpTo_pending ..⟩
  | drainRemoval d => exact ⟨_, rfl, drainRemoval_pending ..⟩
  | engineTake us => exact struck us (engineTake_pending _)
  | replyBuild =>
    refine ⟨_, rfl, ?_⟩
    split
    · exact replyStep_pending ..
    · rfl
  | leaseExpiry =>
    refine ⟨_, rfl, ?_⟩
    split
    · split <;> simp
    · rfl
  | retryTimerExpiry => refine ⟨_, rfl, ?_⟩; split <;> rfl
  | noticeDeliveryAttempt =>
    refine ⟨_, rfl, ?_⟩
    split
    · exact deliveryAttempt_pending _
    · rfl
  | noticePlacement =>
    refine ⟨_, rfl, ?_⟩
    split
    · exact placeNotice_pending ..
    · rfl
  | identify ops => exact order (identifyBody_keepsQueue ops)
  | claim ops => exact order (claimBody_keepsQueue ops)
  | renew ops => exact order (renewBody_keepsQueue ops)
  | release ops => exact order (releaseBody_keepsQueue ops)
  | setStation ops => exact order (setStationBody_keepsQueue ops)
  | readEntry ops us => exact struck us (dealOrder_pending _ _ (readEntryBody_keepsQueue ops) _)
  | writeEntry ops us => exact struck us (dealOrder_pending _ _ (writeEntryBody_keepsQueue ops) _)
  | freeEntry ops => exact order (freeEntryBody_keepsQueue ops)
  | findEntry ops us => exact struck us (dealOrder_pending _ _ (findEntryBody_keepsQueue ops) _)
  | readDefault ops => exact order (readDefaultBody_keepsQueue ops)
  | writeDefault ops => exact order (writeDefaultBody_keepsQueue ops)
  | readDeque ops => exact order (readDequeBody_keepsQueue ops)
  | setDeque ops => exact order (setDequeBody_keepsQueue ops)
  | openDeque ops => exact order (stateOrder_keepsQueue ops _ fun _ _ => offer_pending ..)
  | pauseDeque ops => exact order (stateOrder_keepsQueue ops _ fun _ _ => rfl)
  | resumeDeque ops => exact order (stateOrder_keepsQueue ops _ fun _ _ => offer_pending ..)
  | drainDeque ops => exact order (drainDequeBody_keepsQueue ops)
  | readPort ops => exact order (readPortBody_keepsQueue ops)
  | holdPort ops => exact order (portOrder_keepsQueue ops fun _ _ => rfl)
  | unholdPort ops => exact order (portOrder_keepsQueue ops fun _ _ => takeAttempt_pending ..)
  | retrainPort ops => exact order (portOrder_keepsQueue ops retrain_pending)
  | readExceptions ops => exact order (readExceptionsBody_keepsQueue ops)
  | ackExceptions ops => exact order (ackExceptionsBody_keepsQueue ops)
  | setReporting ops => exact order (setReportingBody_keepsQueue ops)
  | readChecks ops => exact order (readChecksBody_keepsQueue ops)
  | clearChecks ops => exact order (clearChecksBody_keepsQueue ops)
  | readPool ops => exact order (readPoolBody_keepsQueue ops)
  | resetTraffic ops => exact order (resetTrafficBody_keepsQueue ops)
  | resetFull ops => exact order (resetFullBody_keepsQueue ops)
  | unknownOrder code ops =>
    refine ⟨_, rfl, ?_⟩
    split
    · exact dealOrder_pending _ _ (refuse_keepsQueue _) _
    · rfl

/-- Settles O3: the queue is left by every meaning, case by case over the commands. -/
theorem noCommandStops : Obligations.NoCommandStops := by
  unfold Obligations.NoCommandStops
  exact exec_pending

end Sys2Proof.Machine
end

section
/-! SUPPORT. How the operations of a port pass each other; the families of the links. -/

namespace Sys2Proof.Machine

open Sys2Proof

/-! ## One port written after another, and beside what looks at no port -/

theorem setPort_eq_withPorts (p : Port) (y : PortState) (s : State) : s.setPort p y = s.withPorts (s.ports.set p y) := rfl

theorem updPort_eq (p : Port) (f : PortState → PortState) (s : State) : s.updPort p f = s.setPort p (f (s.port p)) := rfl

theorem setLink_eq (p : Port) (x : LinkState) (s : State) : s.setLink p x = s.setPort p { s.port p with link := x } := rfl

theorem setReceiver_eq (p : Port) (x : Receiver) (s : State) :
    s.setReceiver p x = s.setPort p { s.port p with receiver := x } := rfl

theorem setTransmitter_eq (p : Port) (x : Transmitter) (s : State) :
    s.setTransmitter p x = s.setPort p { s.port p with transmitter := x } := rfl

theorem setAdmission_eq (p : Port) (x : AdmissionUnit) (s : State) :
    s.setAdmission p x = s.setPort p { s.port p with admission := x } := rfl

theorem setLineOut_eq (p : Port) (x : LineFrame) (s : State) :
    s.setLineOut p x = s.setPort p { s.port p with lineOut := some x } := rfl

theorem dropWaits_eq (p : Port) (s : State) : s.dropWaits p = s.setPort p { s.port p with lineWaits := [] } := rfl

theorem runBroken_eq (p : Port) (s : State) : s.runBroken p = s.setPort p { s.port p with link := .up 0 } := rfl

/-- A port written with what it holds. -/
theorem setPort_of_eq {p : Port} {y : PortState} {s : State} (h : y = s.port p) : s.setPort p y = s := by
  rw [h, setPort_self]

theorem PortState.setReceiver_self {y : PortState} {x : Receiver} (h : y.receiver = x) : { y with receiver := x } = y := by
  rw [← h]

theorem PortState.setTransmitter_self {y : PortState} {x : Transmitter} (h : y.transmitter = x) :
    { y with transmitter := x } = y := by
  rw [← h]

theorem setPort_setPort (p : Port) (x y : PortState) (s : State) : (s.setPort p x).setPort p y = s.setPort p y := by
  simp only [State.setPort, PerPort.set_set]

/-- What looks at no port acts beside a port written before it. -/
theorem setPort_of_withPorts {f : State → State} (hf : ∀ x s, f (s.withPorts x) = (f s).withPorts x) (p : Port)
    (y : PortState) (s : State) : f (s.setPort p y) = (f s).setPort p y := by
  have hf' : f s = (f s).withPorts s.ports := hf s.ports s
  have hp : (f s).ports = s.ports := by rw [hf']; rfl
  rw [setPort_eq_withPorts, setPort_eq_withPorts, hf, hp]

theorem report_setPort (p : Port) (y : PortState) (q : Request) (s : State) :
    (s.setPort p y).report q = (s.report q).setPort p y :=
  setPort_of_withPorts (fun x s => report_withPorts q x s) p y s

theorem freeFrame_setPort (p : Port) (y : PortState) (r : RecordNo) (cells : List CellNo) (s : State) :
    (s.setPort p y).freeFrame r cells = (s.freeFrame r cells).setPort p y := rfl

theorem setRecord_setPort (p : Port) (y : PortState) (r : RecordNo) (x : FrameRecord) (s : State) :
    (s.setPort p y).setRecord r x = (s.setRecord r x).setPort p y := rfl

/-- What a report leaves of a port and of a record. -/
theorem port_congr {s t : State} (h : t.ports = s.ports) (p : Port) : t.port p = s.port p := by
  rw [State.port, State.port, h]

theorem record_congr {s t : State} (h : t.records = s.records) (r : RecordNo) : t.record r = s.record r := by
  rw [State.record, State.record, h]

@[simp] theorem report_port (q : Request) (s : State) (p : Port) : (s.report q).port p = s.port p := port_congr (by simp) p

@[simp] theorem report_record (q : Request) (s : State) (r : RecordNo) : (s.report q).record r = s.record r :=
  record_congr (by simp) r

@[simp] theorem freeFrame_port (r : RecordNo) (cells : List CellNo) (s : State) (p : Port) :
    (s.freeFrame r cells).port p = s.port p := rfl

@[simp] theorem setRecord_port (r : RecordNo) (x : FrameRecord) (s : State) (p : Port) :
    (s.setRecord r x).port p = s.port p := rfl

@[simp] theorem setPort_record (p : Port) (y : PortState) (s : State) (r : RecordNo) :
    (s.setPort p y).record r = s.record r := rfl

/-! ## Events of a link that is not UP, and what a transmit side sends (R103, R104) -/

theorem exec_signalDetected (p : Port) (s : State) :
    exec (.signalDetected p) s = .next (s.setPort p { s.port p with
      signal := true
      link := if (s.port p).link = .down ∧ (s.port p).quietUntil = none then .sync 0 else (s.port p).link }) := by
  simp only [exec, execSignalDetected, updPort_eq, setLink_eq, setPort_port_same, setPort_setPort]
  cases hl : (s.port p).link <;> cases hq : (s.port p).quietUntil <;> simp

/-- Settles O6: each event is the case of its definition that the link state selects. -/
theorem linkEvents : Obligations.LinkEvents := by
  unfold Obligations.LinkEvents
  refine ⟨exec_signalDetected, fun p s h => ?_, fun p s h => ?_, fun p s h => ?_, fun s p => ⟨?_, ?_, ?_⟩⟩
  · simp only [exec, execLossOfSignal, updPort_eq, setLink_eq, setPort_port_same, setPort_setPort]
    cases hl : (s.port p).link with
    | down => simp
    | sync n => rfl
    | up n => rw [hl] at h; cases h
  · simp only [exec, execAlignmentAchieved, h, alignmentRun]
    rfl
  · simp only [exec, execEndOfQuietPeriod, h, if_true, updPort_eq, setLink_eq, setPort_port_same, setPort_setPort]
    cases hl : (s.port p).link with
    | down => cases hs : (s.port p).signal <;> simp
    | sync n => simp
    | up n => simp
  · intro ends h
    simp [State.lineSends, h]
  · intro h ht
    simp [State.lineSends, h, ht]
  · intro r d unread h ht
    simp [State.lineSends, h, ht]

/-! ## A link leaves UP (R105) -/

@[simp] theorem release_port (r : RecordNo) (s : State) (q : Port) : (s.release r).port q = s.port q :=
  port_congr (by simp) q

/-- The end of a transmission in the abort, at the ports: the line output may be written, the transmitter is IDLE. -/
theorem abort_ports (p : Port) (s : State) :
    ∃ o, (s.abort p).ports = (s.setPort p { s.port p with transmitter := .idle, lineOut := o }).ports := by
  unfold State.abort
  cases ht : (s.port p).transmitter with
  | idle => exact ⟨(s.port p).lineOut, by rw [setPort_of_eq (PortState.setTransmitter_self ht)]⟩
  | sending r d unread =>
    refine ⟨some (cutFrame (s.cutShort (leastSent (s.cellsRead r unread)) (s.sendable r unread
      (completeFrame (s.sentBytes r)).bytes))), ?_⟩
    simp [State.cutLine, setTransmitter_eq, setLineOut_eq, State.port, PerPort.set_set]

/-- The end of a reception, at the ports. -/
theorem cutReception_ports (p : Port) (s : State) :
    (s.cutReception p).ports = (s.setPort p { s.port p with receiver := .idle }).ports := by
  unfold State.cutReception
  cases hr : (s.port p).receiver with
  | idle => rw [setPort_of_eq (PortState.setReceiver_self hr)]
  | receiving x => simp [setReceiver_eq, State.port]
  | discarding => rfl

/-- What leaving UP does to the port. -/
theorem leaveUp_ports (p : Port) (s : State) :
    ∃ o, (s.leaveUp p).ports = (s.setPort p { s.port p with
      link := .down, transmitter := .idle, receiver := .idle, lineWaits := [], lineOut := o }).ports := by
  obtain ⟨o, ha⟩ := abort_ports p (s.portReport p .linkDown)
  refine ⟨o, ?_⟩
  have h1 : (s.portReport p .linkDown).ports = s.ports := by simp
  simp only [State.leaveUp, setLink_eq, dropWaits_eq, State.setPort, State.port, cutReception_ports, ha, h1,
    PerPort.get_set_same, PerPort.set_set]

theorem leaveUp_port (p : Port) (s : State) :
    ∃ o, (s.leaveUp p).port p = { s.port p with
      link := .down, transmitter := .idle, receiver := .idle, lineWaits := [], lineOut := o } := by
  obtain ⟨o, h⟩ := leaveUp_ports p s
  exact ⟨o, by rw [port_congr h, setPort_port_same]⟩

theorem leaveUp_port_of_ne {p q : Port} (h : q ≠ p) (s : State) : (s.leaveUp p).port q = s.port q := by
  obtain ⟨o, hp⟩ := leaveUp_ports p s
  rw [port_congr hp, setPort_port_of_ne _ _ h]

theorem leaveUp_sameElsewhere (p : Port) (s : State) : SameElsewhere s (s.leaveUp p) := by
  simp [SameElsewhere]

/-- With no frame being sent or received, LINK_DOWN is all there is. -/
theorem leaveUp_of_quiet {p : Port} {s : State} (ht : (s.port p).transmitter = .idle)
    (hr : ∀ x, (s.port p).receiver ≠ .receiving x) :
    s.leaveUp p = (s.report { code := .linkDown, port := some p }).setPort p
      { s.port p with link := .down, receiver := .idle, lineWaits := [] } := by
  have hc : (s.portReport p .linkDown).cutReception p =
      (s.report { code := .linkDown, port := some p }).setPort p { s.port p with receiver := .idle } := by
    unfold State.cutReception
    simp only [State.portReport, report_port]
    cases h : (s.port p).receiver with
    | idle => rw [setPort_of_eq (by rw [report_port, PortState.setReceiver_self h])]
    | receiving x => exact absurd h (hr x)
    | discarding => rw [setReceiver_eq, report_port]
  have ha : (s.portReport p .linkDown).abort p = s.portReport p .linkDown := by
    simp [State.abort, State.portReport, ht]
  rw [State.leaveUp, ha, hc]
  simp only [dropWaits_eq, setLink_eq, setPort_port_same, setPort_setPort]

/-- With a frame being received and none being sent, TRUNCATED follows, and record and cells return. -/
theorem leaveUp_of_receiving {p : Port} {s : State} {x : Reception} {f : ReceivingFrame}
    (ht : (s.port p).transmitter = .idle) (hr : (s.port p).receiver = .receiving x) (hf : s.record x.record = .receiving f) :
    s.leaveUp p = (((s.report { code := .linkDown, port := some p }).report
      { code := .truncated, port := some p }).freeFrame x.record f.cells).setPort p
        { s.port p with link := .down, receiver := .idle, lineWaits := [] } := by
  have ha : (s.portReport p .linkDown).abort p = s.portReport p .linkDown := by
    simp [State.abort, State.portReport, ht]
  have hg : ((s.report { code := .linkDown, port := some p }).report { code := .truncated, port := some p }).record
      x.record = .receiving f := by simp [hf]
  rw [State.leaveUp, ha, State.cutReception]
  simp only [State.portReport, report_port, hr, returnReceived_of hg, setReceiver_eq, freeFrame_port, dropWaits_eq,
    setLink_eq, setPort_port_same, setPort_setPort]

/-- Loss of signal on an UP link, and the fourth invalid group in a row. -/
theorem exec_lossOfSignal_of_up {p : Port} {s : State} {n : Nat} (h : (s.port p).link = .up n) :
    exec (.lossOfSignal p) s = .next ((s.setPort p { s.port p with signal := false }).leaveUp p) := by
  simp only [exec, execLossOfSignal, h, updPort_eq]

theorem exec_lossOfAlignment_of_up {p : Port} {s : State} (h : (s.port p).link = .up 3) :
    exec (.lossOfAlignment p) s = .next (s.leaveUp p) := by
  simp [exec, execLossOfAlignment, h, lossRun]

theorem exec_invalidCodeGroup_of_fourth {p : Port} {s : State} (h : (s.port p).link = .up 3) :
    exec (.invalidCodeGroup p) s = .next (s.leaveUp p) := by
  simp [exec, execInvalidCodeGroup, h, lossRun]

/-- Settles O7: all three events make the link leave UP; the rest is what that does to the port and to a reception. -/
theorem linkLeavesUp : Obligations.LinkLeavesUp := by
  unfold Obligations.LinkLeavesUp
  refine ⟨fun p s n h => ?signal, fun p s h => ?alignment, fun p s n h ht => ?record⟩
  case signal =>
    refine ⟨_, exec_lossOfSignal_of_up h, ?_⟩
    obtain ⟨o, hp⟩ := leaveUp_port p (s.setPort p { s.port p with signal := false })
    rw [setPort_port_same] at hp
    rw [hp]
    exact ⟨rfl, rfl, rfl, rfl, rfl, rfl, rfl, rfl, rfl,
      fun q hq => (leaveUp_port_of_ne hq _).trans (setPort_port_of_ne _ _ hq), leaveUp_sameElsewhere p _⟩
  case alignment =>
    refine ⟨_, exec_lossOfAlignment_of_up h, exec_invalidCodeGroup_of_fourth h, ?_⟩
    obtain ⟨o, hp⟩ := leaveUp_port p s
    rw [hp]
    exact ⟨rfl, rfl, rfl, rfl, rfl, rfl, rfl, rfl, rfl, fun q hq => leaveUp_port_of_ne hq _, leaveUp_sameElsewhere p _⟩
  case record =>
    dsimp only
    refine ⟨fun hr => ⟨?_, ?_⟩, fun x f hr hf => ⟨?_, ?_⟩⟩
    · rw [exec_lossOfSignal_of_up h, leaveUp_of_quiet (by simpa using ht) (by simpa using hr)]
      simp only [report_setPort, setPort_port_same, setPort_setPort, id_eq]
    · rintro rfl
      rw [exec_lossOfAlignment_of_up h, exec_invalidCodeGroup_of_fourth h, leaveUp_of_quiet ht hr, report_setPort]
      exact ⟨rfl, rfl⟩
    · rw [exec_lossOfSignal_of_up h, leaveUp_of_receiving (x := x) (f := f) (by simpa using ht) (by simpa using hr)
        (by simpa using hf)]
      simp only [report_setPort, freeFrame_setPort, setPort_port_same, setPort_setPort]
    · rintro rfl
      rw [exec_lossOfAlignment_of_up h, exec_invalidCodeGroup_of_fourth h, leaveUp_of_receiving ht hr hf]
      simp only [report_setPort, freeFrame_setPort]
      trivial

/-! ## The runs of code groups (R103) -/

theorem becomeUp_eq (p : Port) (s : State) :
    s.becomeUp p = ((s.setLink p (.up 0)).report { code := .linkUp, port := some p }).takeAttempt p := rfl

/-- Settles O8: the cases of the link state, each read off its event's definition. -/
theorem codeGroupRuns : Obligations.CodeGroupRuns := by
  unfold Obligations.CodeGroupRuns
  refine ⟨fun p b s h => ?down, fun p s n h hn => ?count, fun p s h => ?aligned, fun p b s n h => ?sync,
    fun p s n h => ?idle, fun p s n h hn hw hr => ?invalid, fun p s n x h hn hw hr => ?damaged⟩
  case down =>
    have hg (g : LineGroup) : s.lineGroup p g = s := by simp [State.lineGroup, State.validGroup, h, LinkState.isUp]
    simp only [exec, execIdleCodeGroup, execInvalidCodeGroup, execStartOfFrame, execDataByte, execEndOfFrame, State.strike,
      List.foldl_nil, hg, h, and_self]
  case count =>
    have hlt : ¬ alignmentRun ≤ n + 1 := by simp only [alignmentRun]; omega
    simp only [exec, execIdleCodeGroup, h, if_neg hlt]
  case aligned => simp only [exec, execIdleCodeGroup, h, alignmentRun, Nat.reduceAdd, Nat.le_refl, if_true, becomeUp_eq]
  case sync =>
    have hv : s.validGroup p = s.setLink p (.sync 0) := by simp [State.validGroup, h]
    have hg (g : LineGroup) : s.lineGroup p g = s.setLink p (.sync 0) := by
      simp [State.lineGroup, hv, setLink_eq, LinkState.isUp]
    simp only [exec, execInvalidCodeGroup, execStartOfFrame, execDataByte, execEndOfFrame, State.strike, List.foldl_nil,
      hg, h, and_self]
  case idle => simp only [exec, execIdleCodeGroup, h, State.runBroken]
  case invalid =>
    have hlt : ¬ lossRun ≤ n + 1 := by simp only [lossRun]; omega
    simp only [exec, execInvalidCodeGroup, h, if_neg hlt, State.reachReceiver, setLink_eq, setPort_port_same, hw,
      PortState.takes, and_self, if_true, State.takeGroup, State.markDamage]
  case damaged =>
    have hlt : ¬ lossRun ≤ n + 1 := by simp only [lossRun]; omega
    simp only [exec, execInvalidCodeGroup, h, if_neg hlt, State.reachReceiver, setLink_eq, setPort_port_same, hw,
      PortState.takes, and_self, if_true, State.takeGroup, State.markDamage, hr]

end Sys2Proof.Machine
end

section
/-! SUPPORT. The families of the receivers: start of frame, data byte, end of frame. -/

namespace Sys2Proof.Machine

open Sys2Proof

/-! ## Start of frame (R56, R110, R117) -/

theorem beginFrame_of_granted {p : Port} {s : State} {r : RecordNo} {rest : List RecordNo} (h : s.freeRecords = r :: rest)
    (hn : 8 < s.freeRecords.length) :
    s.beginFrame p =
      { (s.setRecord r (.receiving ⟨[], p, s.timebase⟩)).setReceiver p (.receiving ⟨r, 0, false, []⟩) with
        freeRecords := rest } := by
  have hn' : recordReserve < (r :: rest).length := h ▸ hn
  simp only [State.beginFrame, h, hn', if_true]
  rfl

theorem beginFrame_of_refused {p : Port} {s : State} (hn : s.freeRecords.length ≤ 8) :
    s.beginFrame p = (s.report { code := .noRecord, port := some p }).setReceiver p .discarding := by
  have hn' : ¬ recordReserve < s.freeRecords.length := Nat.not_lt.mpr hn
  unfold State.beginFrame
  split
  · rw [if_neg hn']; rfl
  · rfl

/-- A start of frame on an UP link, at a receiver that holds no frame. -/
theorem exec_startOfFrame_of_empty {p : Port} {s : State} (h : LinkReady s p) (hr : ∀ x, (s.port p).receiver ≠ .receiving x) :
    exec (.startOfFrame p) s = .next ((s.runBroken p).beginFrame p) := by
  simp only [exec, execStartOfFrame, h.lineGroup (g := .start) rfl, State.takeGroup, State.takeStart, runBroken_port]

/-- A start of frame on an UP link, at a receiver whose frame has lost its end. -/
theorem exec_startOfFrame_of_receiving {p : Port} {s : State} {x : Reception} {f : ReceivingFrame} (h : LinkReady s p)
    (hr : (s.port p).receiver = .receiving x) (hf : s.record x.record = .receiving f) :
    exec (.startOfFrame p) s = .next
      ((((s.runBroken p).report { code := .truncated, port := some p }).freeFrame x.record f.cells).beginFrame p) := by
  have hg : ((s.runBroken p).report { code := .truncated, port := some p }).record x.record = .receiving f := by
    rw [report_record]; exact hf
  simp only [exec, execStartOfFrame, h.lineGroup (g := .start) rfl, State.takeGroup, State.takeStart, runBroken_port, hr,
    State.portReport, returnReceived_of hg]

/-- Settles O9: the receiver holds a frame or not, and a record is granted or not. -/
theorem startOfFrame : Obligations.StartOfFrame := by
  unfold Obligations.StartOfFrame
  refine ⟨fun p s r rest h hr hl hn => ?_, fun p s h hr hn => ?_, fun p s x f r rest h hr hf hl hn => ?_,
    fun p s x f h hr hf hn => ?_⟩
  · rw [exec_startOfFrame_of_empty h hr, beginFrame_of_granted (s := s.runBroken p) hl hn]
    rfl
  · rw [exec_startOfFrame_of_empty h hr, beginFrame_of_refused (s := s.runBroken p) hn]
  · have hl' : (((s.runBroken p).report { code := .truncated, port := some p }).freeFrame x.record f.cells).freeRecords =
        r :: rest := by simpa [State.freeFrame, State.runBroken] using hl
    rw [exec_startOfFrame_of_receiving h hr hf, beginFrame_of_granted hl' (hl' ▸ hn)]
    congr 5
    simp [State.freeFrame, State.runBroken]
  · have hn' : (((s.runBroken p).report { code := .truncated, port := some p }).freeFrame x.record
        f.cells).freeRecords.length ≤ 8 := by simpa [State.freeFrame, State.runBroken] using hn
    rw [exec_startOfFrame_of_receiving h hr hf, beginFrame_of_refused hn']

/-! ## Data bytes (R111 to R113) -/

theorem exec_dataByte_of_ready {p : Port} {b : Byte} {s : State} (h : LinkReady s p) :
    exec (.dataByte p b) s = .next ((s.runBroken p).takeData p b) := by
  simp only [exec, execDataByte, h.lineGroup (g := .data b) rfl, State.takeGroup]

theorem takeData_of_empty {p : Port} {s : State} (hr : ∀ x, (s.port p).receiver ≠ .receiving x) (b : Byte) :
    s.takeData p b = s := by
  unfold State.takeData
  split
  · rename_i x hx
    exact absurd hx (hr x)
  · rfl

theorem exec_dataByte_of_receiving {p : Port} {b : Byte} {s : State} {x : Reception} (h : LinkReady s p)
    (hr : (s.port p).receiver = .receiving x) :
    exec (.dataByte p b) s = .next ((s.runBroken p).receiveByte p x b) := by
  simp only [exec_dataByte_of_ready h, State.takeData, runBroken_port, hr]

theorem giveUp_of {p : Port} {s : State} {r : RecordNo} {f : ReceivingFrame} (hf : s.record r = .receiving f)
    (code : ExcCode) :
    s.giveUp p r code = ((s.report { code := code, port := some p }).freeFrame r f.cells).setReceiver p .discarding := by
  have hg : (s.report { code := code, port := some p }).record r = .receiving f := by rw [report_record, hf]
  rw [State.giveUp, State.portReport, returnReceived_of hg]

theorem storeByte_of {s : State} {r : RecordNo} {f : ReceivingFrame} (hf : s.record r = .receiving f) (i : Nat) (b : Byte) :
    s.storeByte r i b =
      { s.setEcc (cellAt f.cells i) .sound with mem := Memory.write s.mem (storedAddress f.cells i) b } := by
  simp only [State.storeByte, hf]

theorem takeCell_of_granted {s : State} {r : RecordNo} {f : ReceivingFrame} {c : CellNo} {rest : List CellNo}
    (hf : s.record r = .receiving f) (hc : s.freeCells = c :: rest) (hn : 16 < s.freeCells.length) :
    s.takeCell r = some { s.setRecord r (.receiving { f with cells := f.cells ++ [c] }) with freeCells := rest } := by
  have hn' : cellReserve < (c :: rest).length := hc ▸ hn
  simp only [State.takeCell, hf, hc, hn', if_true]

theorem takeCell_of_refused {s : State} {r : RecordNo} (hn : s.freeCells.length ≤ 16) : s.takeCell r = none := by
  have hn' : ¬ cellReserve < s.freeCells.length := Nat.not_lt.mpr hn
  unfold State.takeCell
  split
  · rw [if_neg hn']
  · rfl

/-- A byte enters a window that is not full. -/
theorem receiveByte_of_fill {p : Port} {x : Reception} {b : Byte} {s : State} (hn : x.lineBytes < 1028)
    (hw : x.window.length < 4) :
    s.receiveByte p x b =
      s.setReceiver p (.receiving { x with lineBytes := x.lineBytes + 1, window := x.window ++ [b] }) := by
  have hne : ¬ x.lineBytes + 1 = overlengthCount := by simp only [overlengthCount]; omega
  simp only [State.receiveByte, if_neg hne]
  split
  · rename_i hx
    simp only [hx, List.length_cons] at hw
    omega
  · rfl

/-- A byte pushes the oldest of a full window into the frame's memory, in a cell that the frame has. -/
theorem receiveByte_of_store {p : Port} {x : Reception} {b w0 w1 w2 w3 : Byte} {k : Nat} {s : State}
    (hk : x.lineBytes = k + 4) (hn : x.lineBytes < 1028) (hw : x.window = [w0, w1, w2, w3]) (hb : k % 128 ≠ 0) :
    s.receiveByte p x b = (s.storeByte x.record k w0).setReceiver p
      (.receiving { x with lineBytes := k + 5, window := [w1, w2, w3, b] }) := by
  have h1 : x.lineBytes + 1 = k + 5 := by omega
  have hne : ¬ k + 5 = overlengthCount := by simp only [overlengthCount]; omega
  simp only [State.receiveByte, h1, if_neg hne, hw, Nat.add_sub_cancel, if_neg hb]

/-- The same at the boundary of a cell: one is asked for. -/
theorem receiveByte_of_boundary {p : Port} {x : Reception} {b w0 w1 w2 w3 : Byte} {k : Nat} {s : State}
    (hk : x.lineBytes = k + 4) (hn : x.lineBytes < 1028) (hw : x.window = [w0, w1, w2, w3]) (hb : k % 128 = 0) :
    s.receiveByte p x b = match s.takeCell x.record with
      | some t => (t.storeByte x.record k w0).setReceiver p
          (.receiving { x with lineBytes := k + 5, window := [w1, w2, w3, b] })
      | none => s.giveUp p x.record .noCell := by
  have h1 : x.lineBytes + 1 = k + 5 := by omega
  have hne : ¬ k + 5 = overlengthCount := by simp only [overlengthCount]; omega
  simp only [State.receiveByte, h1, if_neg hne, hw, Nat.add_sub_cancel, hb, if_true] <;> rfl

theorem receiveByte_of_overlength {p : Port} {x : Reception} {b : Byte} {s : State} (hn : x.lineBytes = 1028) :
    s.receiveByte p x b = s.giveUp p x.record .overlength := by
  have he : x.lineBytes + 1 = overlengthCount := by rw [hn]; rfl
  simp only [State.receiveByte, if_pos he]

/-- Settles O10: the window fills, or it pushes a byte out, into the last cell or into a new one. -/
theorem dataByteIsStored : Obligations.DataByteIsStored := by
  unfold Obligations.DataByteIsStored
  refine ⟨fun p b s h hr => ?_, fun p b s x h hr hn hw => ?_, fun p b s x f w0 w1 w2 w3 k h hr hk hn hw hf hb => ?_,
    fun p b s x f w0 w1 w2 w3 k c rest h hr hk hn hw hf hb hc hl => ?_, fun m a a' b hm => Memory.read_write hm a a' b⟩
  · rw [exec_dataByte_of_ready h, takeData_of_empty (by simpa using hr)]
  · rw [exec_dataByte_of_receiving h hr, receiveByte_of_fill hn hw]
  · rw [exec_dataByte_of_receiving h hr, receiveByte_of_store hk hn hw hb,
      storeByte_of (s := s.runBroken p) (f := f) hf]
    rfl
  · rw [exec_dataByte_of_receiving h hr, receiveByte_of_boundary hk hn hw hb,
      takeCell_of_granted (s := s.runBroken p) hf hc hl]
    dsimp only
    rw [storeByte_of (f := { f with cells := f.cells ++ [c] })
      (s := { (s.runBroken p).setRecord x.record (.receiving { f with cells := f.cells ++ [c] }) with freeCells := rest })
      (setRecord_record_same ..)]
    rfl

/-- Settles O11: the refused cell and the overlong frame both give the reception up. -/
theorem dataByteEndsReception : Obligations.DataByteEndsReception := by
  unfold Obligations.DataByteEndsReception
  refine ⟨fun p b s x f k h hr hk hn hw hf hb hl => ?_, fun p b s x f h hr hn hf => ?_⟩
  · obtain ⟨w0, w1, w2, w3, hw⟩ := List.length_eq_four.mp hw
    rw [exec_dataByte_of_receiving h hr, receiveByte_of_boundary hk hn hw hb,
      takeCell_of_refused (s := s.runBroken p) hl, giveUp_of (s := s.runBroken p) hf]
  · rw [exec_dataByte_of_receiving h hr, receiveByte_of_overlength hn, giveUp_of (s := s.runBroken p) hf]

/-! ## End of frame (R68, R114 to R116) -/

theorem exec_endOfFrame (p : Port) (s : State) : exec (.endOfFrame p []) s = .next (s.lineGroup p .finish) := rfl

/-- An end of frame at a port whose admission unit is under way does not reach the receiver. -/
theorem takes_finish_of_admitting {y : PortState} (h : y.admission ≠ .idle) : y.takes .finish = false := by
  unfold PortState.takes
  cases ha : y.admission with
  | idle => exact absurd ha h
  | admitting a => rfl

theorem takes_of_idle {y : PortState} {g : LineGroup} (h : g = .finish → y.admission = .idle) : y.takes g = true := by
  cases g with
  | finish => simp [PortState.takes, h rfl]
  | _ => rfl

theorem exec_endOfFrame_of_ready {p : Port} {s : State} (h : LinkReady s p) (ha : (s.port p).admission = .idle) :
    exec (.endOfFrame p []) s = .next ((s.runBroken p).takeEnd p) := by
  rw [exec_endOfFrame, h.lineGroup (takes_of_idle fun _ => ha)]
  rfl

theorem exec_endOfFrame_of_receiving {p : Port} {s : State} {x : Reception} (h : LinkReady s p)
    (ha : (s.port p).admission = .idle) (hr : (s.port p).receiver = .receiving x) :
    exec (.endOfFrame p []) s = .next ((s.runBroken p).endReception p x) := by
  rw [exec_endOfFrame_of_ready h ha, State.takeEnd]
  simp only [runBroken_port, hr]

theorem takeEnd_of_empty {p : Port} {s : State} (hr : ∀ x, (s.port p).receiver ≠ .receiving x) :
    s.takeEnd p = s.setReceiver p .idle := by
  unfold State.takeEnd
  cases h : (s.port p).receiver with
  | idle => exact (setPort_of_eq (PortState.setReceiver_self h)).symm
  | receiving x => exact absurd h (hr x)
  | discarding => rfl

/-- A frame that fails an end check. -/
theorem endReception_of_fault {p : Port} {s : State} {x : Reception} {f : ReceivingFrame} {code : ExcCode}
    (hf : s.record x.record = .receiving f) (he : endFault x (readStored f.cells s.mem 0 (x.lineBytes - 4)) = some code) :
    s.endReception p x =
      ((s.report { code := code, port := some p, summary := endSummary code (readStored f.cells s.mem 0 (x.lineBytes - 4)) }).freeFrame
        x.record f.cells).setReceiver p .idle := by
  have hg (q : Request) : (s.report q).record x.record = .receiving f := by rw [report_record, hf]
  simp only [State.endReception, hf, he, returnReceived_of (hg _)]

/-- The invalid group that neither ends the alignment nor can be taken. -/
theorem exec_invalidCodeGroup_of_up {p : Port} {s : State} {n : Nat} (h : (s.port p).link = .up n) (hn : n < 3) :
    exec (.invalidCodeGroup p) s = .next ((s.setLink p (.up (n + 1))).reachReceiver p .invalid) := by
  have hlt : ¬ lossRun ≤ n + 1 := by simp only [lossRun]; omega
  simp only [exec, execInvalidCodeGroup, h, if_neg hlt]

theorem reachReceiver_of_waits {p : Port} {g : LineGroup} {s : State} (h : (s.port p).lineWaits ≠ []) :
    s.reachReceiver p g = s.waits p g := by
  unfold State.reachReceiver
  rw [if_neg fun h' => h h'.1]
  rfl

theorem reachReceiver_of_taken {p : Port} {g : LineGroup} {s : State} (h : (s.port p).lineWaits = [])
    (ht : (s.port p).takes g = true) : s.reachReceiver p g = s.takeGroup p g := by
  unfold State.reachReceiver
  rw [if_pos ⟨h, ht⟩]

/-- A group that comes to an UP link with nothing waiting and a receiver that can take it. -/
theorem exec_command_withLine {p : Port} {g : LineGroup} {s : State} (h : g = .finish → (s.port p).admission = .idle) :
    ∃ l, exec (g.command p) (s.withLine p (.up 0) []) = .next ((s.takeGroup p g).withLine p l []) := by
  have hp : (s.withLine p (.up 0) []).port p = { s.port p with link := .up 0, lineWaits := [] } := setPort_port_same ..
  have hready : LinkReady (s.withLine p (.up 0) []) p := ⟨⟨0, by rw [hp]⟩, by rw [hp]⟩
  have ht : ((s.withLine p (.up 0) []).port p).takes g = true := takes_of_idle fun hg => by rw [hp]; exact h hg
  have hb : (s.withLine p (.up 0) []).runBroken p = s.withLine p (.up 0) [] := by
    rw [runBroken_eq]
    exact setPort_of_eq (by rw [hp])
  have hline : (s.withLine p (.up 0) []).lineGroup p g = (s.takeGroup p g).withLine p (.up 0) [] := by
    rw [hready.lineGroup ht, hb, takeGroup_withLine]
  cases g with
  | start => exact ⟨_, congrArg Host.Outcome.next hline⟩
  | data b => exact ⟨_, congrArg Host.Outcome.next hline⟩
  | finish => exact ⟨_, congrArg Host.Outcome.next hline⟩
  | invalid =>
    have hl : (s.withLine p (.up 0) []).setLink p (.up 1) = s.withLine p (.up 1) [] := by
      rw [setLink_eq, hp]
      exact setPort_setPort ..
    refine ⟨.up 1, ?_⟩
    rw [LineGroup.command, exec_invalidCodeGroup_of_up (n := 0) (by rw [hp]) (by omega), Nat.zero_add, hl,
      reachReceiver_of_taken (by simp [State.withLine]) rfl, takeGroup_withLine]

/-- A group taken late is taken as one that comes. -/
theorem takeWaiting_of_command {p : Port} {s : State} {g : LineGroup} {rest : List LineGroup}
    (hw : (s.port p).lineWaits = g :: rest) (h : g = .finish → (s.port p).admission = .idle) :
    ∃ t, exec (g.command p) (s.setPort p { s.port p with link := .up 0, lineWaits := [] }) = .next t ∧
      s.takeWaiting p = t.setPort p { t.port p with link := (s.port p).link, lineWaits := rest } := by
  obtain ⟨l, hl⟩ := exec_command_withLine h
  refine ⟨_, hl, ?_⟩
  rw [takeWaiting_eq hw]
  exact (withLine_withLine ..).symm

theorem endFault_of_runt {x : Reception} {stored : List Byte} (h : x.lineBytes < 12) : endFault x stored = some .runt := by
  rw [endFault, if_pos h]

theorem endFault_of_badCrc {x : Reception} {stored : List Byte} (h : 12 ≤ x.lineBytes)
    (hc : x.damaged = true ∨ crcBytes (crc stored) ≠ x.window) : endFault x stored = some .badCrc := by
  have hb : (x.damaged || crcBytes (crc stored) != x.window) = true := by simpa using hc
  rw [endFault, if_neg (Nat.not_lt.mpr h), if_pos hb]

/-- A frame of 12 bytes or more whose CRC passes comes to the other two checks. -/
theorem endFault_of_sound {x : Reception} {stored : List Byte} (h : 12 ≤ x.lineBytes) (hd : x.damaged = false)
    (hc : crcBytes (crc stored) = x.window) :
    endFault x stored = if !headerFormGood stored then some .badHeader
      else if payloadLengthField stored ≠ stored.length - 8 then some .lengthMismatch else none := by
  have hb : ¬ (x.damaged || crcBytes (crc stored) != x.window) = true := by simp [hd, hc]
  rw [endFault, if_neg (Nat.not_lt.mpr h), if_neg hb]

/-- Settles O12: what waits, what is taken late, and the four checks in their order. -/
theorem failedEndOfFrame : Obligations.FailedEndOfFrame := by
  unfold Obligations.FailedEndOfFrame
  refine ⟨fun p s n h hw => ?waits, fun p b s n h hw => ⟨?start, ?data, fun hn => ?invalid⟩,
    fun p s => finishAdmission_idle p s, fun p s g rest hw h => takeWaiting_of_command hw h,
    fun p s h ha hr => ?empty, fun p s x f h ha hr hf => ?checks⟩
  case waits =>
    rw [exec_endOfFrame, lineGroup_of_waits h (hw.imp_right takes_finish_of_admitting)]
  case start => exact congrArg Host.Outcome.next (lineGroup_of_waits h (.inl hw))
  case data => exact congrArg Host.Outcome.next (lineGroup_of_waits h (.inl hw))
  case invalid =>
    rw [exec_invalidCodeGroup_of_up h hn, reachReceiver_of_waits]
    simpa [setLink_eq] using hw
  case empty => rw [exec_endOfFrame_of_ready h ha, takeEnd_of_empty (by simpa using hr)]
  case checks =>
    dsimp only
    have fails {code : ExcCode} (he : endFault x (readStored f.cells s.mem 0 (x.lineBytes - 4)) = some code) :=
      (exec_endOfFrame_of_receiving h ha hr).trans
        (congrArg Host.Outcome.next (endReception_of_fault (p := p) (s := s.runBroken p) hf he))
    refine ⟨fun h12 => ?_, fun h12 hc => ?_, fun h12 hd hc hh => ?_, fun h12 hd hc hh hl => ?_⟩
    · exact fails (endFault_of_runt h12)
    · exact fails (endFault_of_badCrc h12 hc)
    · exact fails (by simp [endFault_of_sound h12 hd hc, hh])
    · refine fails ?_
      have hl' : ¬ payloadLengthField (readStored f.cells s.mem 0 (x.lineBytes - 4)) = x.lineBytes - 4 - 8 := by
        rwa [Nat.sub_sub]
      simp [endFault_of_sound h12 hd hc, hh, hl']

end Sys2Proof.Machine
end

section
/-! SUPPORT. The families of admission: the hand-over, the steps without a placement, the steering. -/

namespace Sys2Proof.Machine

open Sys2Proof

/-! ## One step of an admission, by the step it is at (4.2 to 4.6) -/

@[simp] theorem setAdmission_record (p : Port) (x : AdmissionUnit) (s : State) (r : RecordNo) :
    (s.setAdmission p x).record r = s.record r := rfl

@[simp] theorem setAdmission_deque (p : Port) (x : AdmissionUnit) (s : State) (d : DequeNo) :
    (s.setAdmission p x).deque d = s.deque d := rfl

@[simp] theorem setAdmission_admission (p : Port) (x : AdmissionUnit) (s : State) :
    ((s.setAdmission p x).port p).admission = x := by simp [setAdmission_eq]

theorem setAdmission_setAdmission (p : Port) (x y : AdmissionUnit) (s : State) :
    (s.setAdmission p x).setAdmission p y = s.setAdmission p y := by
  simp only [setAdmission_eq, setPort_port_same, setPort_setPort]

theorem setRecord_setAdmission (p : Port) (x : AdmissionUnit) (r : RecordNo) (y : FrameRecord) (s : State) :
    (s.setAdmission p x).setRecord r y = (s.setRecord r y).setAdmission p x := rfl

theorem setDeque_setAdmission (p : Port) (x : AdmissionUnit) (d : DequeNo) (y : Deque) (s : State) :
    (s.setAdmission p x).setDeque d y = (s.setDeque d y).setAdmission p x := rfl

theorem report_setAdmission (p : Port) (x : AdmissionUnit) (q : Request) (s : State) :
    (s.setAdmission p x).report q = (s.report q).setAdmission p x := by
  rw [setAdmission_eq, report_setPort, setAdmission_eq, report_port]

/-- The summary of a HELD frame. -/
theorem summaryOf_of_held {s : State} {r : RecordNo} {h : HeldFrame} (hr : s.record r = .held h) :
    s.summaryOf r = some h.header.summary := by
  simp [State.summaryOf, State.held?, hr]

theorem admissionReport_of_held {s : State} {r : RecordNo} {h : HeldFrame} (hr : s.record r = .held h) (p : Port)
    (code : ExcCode) (d : Option DequeNo) (e : Option EntryNo) :
    s.admissionReport p r code d e =
      s.report { code := code, port := some p, deque := d, entry := e, summary := some h.header.summary } := by
  rw [State.admissionReport, summaryOf_of_held hr]

theorem setRecord_of_eq {s : State} {r : RecordNo} {x : FrameRecord} (h : s.record r = x) : s.setRecord r x = s := by
  rw [← h, State.setRecord, State.record]
  simp

/-- The hop budget after the hop rule (R76). -/
def loweredHop (rule : HopRule) (hop : BitVec 4) : BitVec 4 :=
  match rule with
  | .decrement => hop - 1
  | .preserve => hop

section
variable {s : State} {p : Port} {a : Admitting} {h : HeldFrame}

theorem admitStep_of_append (ha : (s.port p).admission = .admitting a) (hr : s.record a.frame = .held h)
    (hn : a.next = .append) :
    s.admitStep p = (s.intakeAppend p a.frame).setAdmission p
      (.admitting { a with next := if a.path = .own then .release else .hopCheck }) := by
  rw [admitStep_of_held ha hr]
  simp only [State.admitHeld, hn, State.appendStep, State.admitNext]
  cases a.path <;> rfl

theorem admitStep_of_misdirect (ha : (s.port p).admission = .admitting a) (hr : s.record a.frame = .held h)
    (hn : a.next = .misdirect) :
    s.admitStep p = (s.report { code := .misdirected, port := some p, summary := some h.header.summary }).setAdmission p
      (.admitting { a with next := .release }) := by
  rw [admitStep_of_held ha hr]
  simp only [State.admitHeld, hn, State.misdirectStep, State.admitNext, admissionReport_of_held hr]

theorem admitStep_of_expired (ha : (s.port p).admission = .admitting a) (hr : s.record a.frame = .held h)
    (hn : a.next = .hopCheck) (h0 : h.header.hop = 0) :
    s.admitStep p = (s.report { code := .expiredHop, port := some p, summary := some h.header.summary }).setAdmission p
      (.admitting { a with next := .release }) := by
  rw [admitStep_of_held ha hr]
  simp only [State.admitHeld, hn, State.hopStep, if_pos h0, State.admitNext, admissionReport_of_held hr]

theorem admitStep_of_hop (ha : (s.port p).admission = .admitting a) (hr : s.record a.frame = .held h)
    (hn : a.next = .hopCheck) (h0 : h.header.hop ≠ 0) :
    s.admitStep p = s.setAdmission p (.admitting { a with next := .lookup }) := by
  rw [admitStep_of_held ha hr]
  simp only [State.admitHeld, hn, State.hopStep, if_neg h0, State.admitNext]

theorem admitStep_of_lookup (ha : (s.port p).admission = .admitting a) (hr : s.record a.frame = .held h)
    (hn : a.next = .lookup) :
    s.admitStep p = (s.lookup h.header.dest h.header.cls p p (some h.header.summary)).2.setAdmission p
      (.admitting { a with
        result := some (s.lookup h.header.dest h.header.cls p p (some h.header.summary)).1, next := .act }) := by
  rw [admitStep_of_held ha hr]
  simp only [State.admitHeld, hn, State.lookupStep, State.admitNext]

theorem admitStep_of_discard {x : LookupResult} (ha : (s.port p).admission = .admitting a)
    (hr : s.record a.frame = .held h) (hn : a.next = .act) (hx : a.result = some x) (hd : x.disposition.action = .discard) :
    s.admitStep p = s.setAdmission p (.admitting { a with next := .release }) := by
  rw [admitStep_of_held ha hr]
  simp only [State.admitHeld, hn, hx, State.actStep, hd, State.admitNext]

theorem admitStep_of_discardReport {x : LookupResult} (ha : (s.port p).admission = .admitting a)
    (hr : s.record a.frame = .held h) (hn : a.next = .act) (hx : a.result = some x)
    (hd : x.disposition.action = .discardReport) :
    s.admitStep p = (s.report
        { code := .noRoute, port := some p, entry := x.used.index?, summary := some h.header.summary }).setAdmission p
      (.admitting { a with next := .release }) := by
  rw [admitStep_of_held ha hr]
  simp only [State.admitHeld, hn, hx, State.actStep, hd, State.admitNext, admissionReport_of_held hr]

theorem admitStep_of_forward {x : LookupResult} {ts : List GeneralNo} (ha : (s.port p).admission = .admitting a)
    (hr : s.record a.frame = .held h) (hn : a.next = .act) (hx : a.result = some x)
    (hd : x.disposition.action = .forward ts) :
    s.admitStep p = (s.setRecord a.frame (.held { h with header := { h.header with
        hop := loweredHop x.disposition.hopRule h.header.hop } })).setAdmission p
      (.admitting { a with nextTarget := some 1, next := .place }) := by
  rw [admitStep_of_held ha hr]
  simp only [State.admitHeld, hn, hx, State.actStep, hd, State.admitNext, State.applyHopRule]
  cases x.disposition.hopRule with
  | decrement => simp only [hr, loweredHop]
  | preserve => simp only [loweredHop, setRecord_of_eq hr]

theorem admitStep_of_place {x : LookupResult} {ts : List GeneralNo} {k : Nat} {g : GeneralNo}
    (ha : (s.port p).admission = .admitting a) (hr : s.record a.frame = .held h) (hn : a.next = .place)
    (hx : a.result = some x) (hk : a.nextTarget = some k) (hd : x.disposition.action = .forward ts) (hl : ts.length ≤ 3)
    (hg : ts[k - 1]? = some g) :
    s.admitStep p = (s.placeTarget p a.frame x.used x.disposition.insertion (general g)).setAdmission p (.admitting
      (if k < ts.length then { a with nextTarget := some (k + 1), next := .place }
       else { a with nextTarget := none, next := .release })) := by
  have hm : (k < ts.length ∧ k < mostTargets) ↔ k < ts.length := and_iff_left_of_imp fun hk' => Nat.lt_of_lt_of_le hk' hl
  rw [admitStep_of_held ha hr]
  simp only [State.admitHeld, hn, hx, hk, State.placeStep, LookupResult.targets, hd, hg, hm, State.admitNext]
  split <;> rfl

theorem admitStep_of_release (ha : (s.port p).admission = .admitting a) (hr : s.record a.frame = .held h)
    (hn : a.next = .release) : s.admitStep p = (s.release a.frame).setAdmission p .idle := by
  rw [admitStep_of_held ha hr]
  simp only [State.admitHeld, hn, State.admissionRelease]

end

/-! ## The hand-over (R59, R69, R115) -/

/-- What the hand-over of a good frame leaves. -/
def State.handedOver (s : State) (p : Port) (x : Reception) (f : ReceivingFrame) (h : Header) (a : AdmissionUnit) : State :=
  (s.setRecord x.record (.held ⟨f.cells, x.lineBytes - 4, .port p, h, f.stamp, 1⟩)).setPort p
    { s.port p with link := .up 0, receiver := .idle, admission := a }

/-- The unit at the start of the admission of a good frame. -/
def State.firstUnit (s : State) (x : Reception) (h : Header) : Admitting :=
  ⟨x.record, s.station, choosePath s.station h, none, none, firstStep (choosePath s.station h) h⟩

theorem exec_endOfFrame_of_good {s : State} {p : Port} {x : Reception} {f : ReceivingFrame} {h : Header}
    (hg : GoodFrame s p x f h) :
    exec (.endOfFrame p []) s = .next (s.handedOver p x f h (.admitting (s.firstUnit x h))) := by
  obtain ⟨hl, ha, hr, hf, hp, h12, hd, hc, hh, hlen, hdec⟩ := hg
  have he : endFault x (readStored f.cells s.mem 0 (x.lineBytes - 4)) = none := by
    simp [endFault_of_sound h12 hd hc, hh, hlen]
  have hf' : (s.runBroken p).record x.record = .receiving f := hf
  have hm : (s.runBroken p).mem = s.mem := rfl
  rw [exec_endOfFrame_of_receiving hl ha hr]
  simp only [State.endReception, hf', hm, he, hdec, State.handOver, readStored_length, hp]
  simp only [setReceiver_eq, setAdmission_eq, runBroken_eq, setRecord_setPort, setPort_port_same, setPort_setPort]
  rfl

theorem handedOver_setAdmission (s : State) (p : Port) (x : Reception) (f : ReceivingFrame) (h : Header)
    (a b : AdmissionUnit) : (s.handedOver p x f h a).setAdmission p b = s.handedOver p x f h b := by
  simp only [State.handedOver, setAdmission_eq, setPort_port_same, setPort_setPort]

@[simp] theorem handedOver_port (s : State) (p : Port) (x : Reception) (f : ReceivingFrame) (h : Header)
    (a : AdmissionUnit) :
    (s.handedOver p x f h a).port p = { s.port p with link := .up 0, receiver := .idle, admission := a } := by
  simp [State.handedOver]

@[simp] theorem handedOver_record (s : State) (p : Port) (x : Reception) (f : ReceivingFrame) (h : Header)
    (a : AdmissionUnit) :
    (s.handedOver p x f h a).record x.record = .held ⟨f.cells, x.lineBytes - 4, .port p, h, f.stamp, 1⟩ := by
  simp [State.handedOver]

theorem choosePath_eq (station : Address) (h : Header) :
    choosePath station h = if h.dest = station then .own
      else if h.dest = 4095 ∧ h.kind = Kind.order then .broadcastOrder else .steered := rfl

theorem choosePath_steered {station : Address} {h : Header} (hd : h.dest ≠ station) (hb : h.dest = 4095 → h.kind ≠ .order) :
    choosePath station h = .steered := by
  rw [choosePath_eq, if_neg hd, if_neg fun h' => hb h'.1 h'.2]

/-! ## Intake (R70, R72) -/

theorem intakeAppend_of_room {s : State} {p : Port} {r : RecordNo} {h : HeldFrame} (hr : s.record r = .held h)
    (hm : r ∉ (s.deque intake).entries) (ha : (s.deque intake).state = .active)
    (hl : (s.deque intake).entries.length < (s.deque intake).config.limit.toNat) :
    s.intakeAppend p r =
      let t := (s.setDeque intake { s.deque intake with entries := (s.deque intake).entries ++ [r] }).setRecord r
        (.held { h with count := h.count + 1 })
      if (s.deque intake).entries = [] then t.offer intake else t := by
  have hr' : (s.setDeque intake { s.deque intake with entries := place .tail r (s.deque intake).entries }).record r =
      .held h := hr
  simp only [State.intakeAppend, arrive_of_room (.inl ha) hm hl, addRef_of_held hr']
  rfl

theorem intakeAppend_of_full {s : State} {p : Port} {r : RecordNo} {h : HeldFrame} (hr : s.record r = .held h)
    (hm : r ∉ (s.deque intake).entries) (ha : (s.deque intake).state = .active)
    (hp : (s.deque intake).config.policy = .refuse)
    (hl : (s.deque intake).config.limit.toNat ≤ (s.deque intake).entries.length) :
    s.intakeAppend p r =
      s.report { code := .intakeFull, port := some p, deque := some intake, summary := some h.header.summary } := by
  simp only [State.intakeAppend, arrive_of_full_refuse (.inl ha) hm hl hp, admissionReport_of_held hr]

/-! ## The chains of steps with nothing between them -/

/-- An offer raises a debt and does nothing else. -/
theorem offer_follow_eq (d : DequeNo) (s : State) : ∃ w, s.offer d = { s with follow := w } := ⟨_, offer_shape d s⟩

/-- A report looks at no frame record. -/
theorem report_setRecord (r : RecordNo) (x : FrameRecord) (q : Request) (s : State) :
    (s.setRecord r x).report q = (s.report q).setRecord r x := by
  have h : (s.setRecord r x).exc = s.exc := rfl
  unfold State.report State.request
  rw [h]
  split
  · simp only
    split <;> rfl
  · rfl

theorem freeFrame_setRecord (r : RecordNo) (x : FrameRecord) (cells : List CellNo) (s : State) :
    (s.setRecord r x).freeFrame r cells = s.freeFrame r cells := by
  simp only [State.freeFrame, State.setRecord, Vector.set_set]

theorem offer_of_mgmt {d : DequeNo} {s : State} (hs : (s.deque d).state = .active)
    (hb : (s.deque d).config.binding = .mgmt) : s.offer d = s.raise (.engineTake []) := by
  simp only [State.offer, hs, hb]

/-- An own ORDER frame whose two steps have nothing between them is in intake with count 1. -/
theorem ownOrder_placed {s : State} {p : Port} {x : Reception} {f : ReceivingFrame} {h : Header}
    (hd : h.dest = s.station) (hk : h.kind = .order) (hl : (s.deque intake).entries.length < (s.deque intake).config.limit.toNat)
    (ha : (s.deque intake).state = .active) (hm : x.record ∉ (s.deque intake).entries) :
    ∃ w, ((s.handedOver p x f h (.admitting (s.firstUnit x h))).admitStep p).admitStep p =
      { (s.handedOver p x f h .idle).setDeque intake
          { s.deque intake with entries := (s.deque intake).entries ++ [x.record] } with follow := w } := by
  have hpath : choosePath s.station h = .own := by rw [choosePath_eq, if_pos hd]
  have hfirst : (s.firstUnit x h).next = .append := by simp [State.firstUnit, hpath, firstStep, hk]
  have hown : (s.firstUnit x h).path = .own := hpath
  have happ := intakeAppend_of_room (s := s.handedOver p x f h (.admitting (s.firstUnit x h))) (p := p)
    (handedOver_record ..) hm ha hl
  obtain ⟨w, hw⟩ : ∃ w, (s.handedOver p x f h (.admitting (s.firstUnit x h))).intakeAppend p x.record =
      { ((s.handedOver p x f h (.admitting (s.firstUnit x h))).setDeque intake
          { s.deque intake with entries := (s.deque intake).entries ++ [x.record] }).setRecord x.record
            (.held ⟨f.cells, x.lineBytes - 4, .port p, h, f.stamp, 2⟩) with follow := w } := by
    rw [happ]
    dsimp only
    split
    · exact offer_follow_eq _ _
    · exact ⟨_, rfl⟩
  refine ⟨w, ?_⟩
  have hrec (t : State) (y : FrameRecord) (q : Port) (u : AdmissionUnit) (w : List Instr) :
      (State.setAdmission q u { t.setRecord x.record y with follow := w }).record x.record = y :=
    setRecord_record_same x.record y t
  rw [admitStep_of_append (by rw [handedOver_port]) (handedOver_record ..) hfirst, if_pos hown]
  change State.admitStep p (State.setAdmission p _ (State.intakeAppend p x.record _)) = _
  rw [hw, admitStep_of_release (setAdmission_admission ..) (hrec ..) rfl]
  change State.setAdmission p _ (State.release x.record _) = _
  rw [release_of_shared (hrec ..) (Nat.lt_succ_self 1)]
  simp only [State.handedOver, setAdmission_eq, State.setRecord, State.setPort, State.setDeque, State.port,
    PerPort.get_set_same, PerPort.set_set, Vector.set_set]

/-- What a hand-over whose admission is done leaves alone. -/
theorem handedOver_sameElsewhere (s : State) (p : Port) (x : Reception) (f : ReceivingFrame) (h : Header)
    (a : AdmissionUnit) (w : List Instr) (d : DequeNo) (q : Deque) :
    SameElsewhere s { (s.handedOver p x f h a).setDeque d q with follow := w } :=
  ⟨rfl, rfl, rfl, rfl, rfl, rfl, rfl, rfl, rfl, rfl, rfl⟩

/-- Settles O13: the hand-over, one append, and the two steps of an own ORDER frame one after the other. -/
theorem ownOrderEntersIntake : Obligations.OwnOrderEntersIntake := by
  unfold Obligations.OwnOrderEntersIntake
  refine ⟨fun s p x f h hg => ?handOver, fun s p a h ha hn hr hm hs => ⟨fun hb hl => ?room, fun hp hl => ?full⟩,
    fun s p x f h hg hd hk hl4 hs hm hl => ?chain⟩
  case handOver => exact exec_endOfFrame_of_good hg
  case room =>
    rw [admitStep_of_append ha hr hn, intakeAppend_of_room hr hm hs hl]
    dsimp only
    congr 1
    split
    · exact offer_of_mgmt ((congrArg Deque.state (setDeque_deque_same ..)).trans hs)
        ((congrArg (fun y : Deque => y.config.binding)
          (setDeque_deque_same intake { s.deque intake with entries := _ } s)).trans hb)
    · rfl
  case full => rw [admitStep_of_append ha hr hn, intakeAppend_of_full hr hm hs hp hl]; rfl
  case chain =>
    obtain ⟨w, hw⟩ := ownOrder_placed (p := p) (f := f) hd hk (by rw [hl4]; exact hl) hs hm
    refine ⟨_, exec_endOfFrame_of_good hg, ?_⟩
    dsimp only
    rw [hw]
    refine ⟨?_, handedOver_record s p x f h .idle, fun d hne => setDeque_deque_of_ne _ _ hne, fun r hne => setRecord_record_of_ne _ _ hne,
      rfl, rfl, rfl, handedOver_port .., fun q hq => setPort_port_of_ne _ _ hq, handedOver_sameElsewhere ..⟩
    exact congrArg Deque.entries (setDeque_deque_same ..)

/-! ## Frames placed nowhere (R63, R71, R73, R75, R80) -/

/-- The release that ends the admission of a frame placed nowhere frees it. -/
theorem admitStep_of_lastRelease {s : State} {p : Port} {x : Reception} {f : ReceivingFrame} {h : Header} {a : Admitting}
    (q : Request) (ha : a.next = .release) (hx : a.frame = x.record) :
    (((s.handedOver p x f h .idle).report q).setAdmission p (.admitting a)).admitStep p =
      (((s.setPort p { s.port p with link := .up 0, receiver := .idle, admission := .idle }).report q).freeFrame
        x.record f.cells) := by
  have hr : (((s.handedOver p x f h .idle).report q).setAdmission p (.admitting a)).record a.frame =
      .held ⟨f.cells, x.lineBytes - 4, .port p, h, f.stamp, 1⟩ := by simp [hx]
  rw [admitStep_of_release (setAdmission_admission ..) hr ha, release_of_last hr (Nat.le_refl 1), hx]
  simp only [setAdmission_eq, State.handedOver, report_setPort, report_setRecord, freeFrame_setPort, freeFrame_setRecord,
    setPort_port_same, setPort_setPort]

/-- Settles O14: one step each, and the two steps of a frame that is misdirected or expired. -/
theorem unplacedFrameIsFreed : Obligations.UnplacedFrameIsFreed := by
  unfold Obligations.UnplacedFrameIsFreed
  refine ⟨fun s p a h ha hr => ⟨?_, ?_, ?_, ?_, ?_, ?_⟩, fun s r h hr => ⟨?_, ?_⟩, fun s r cells => ⟨rfl, ?_, ?_⟩,
    fun s p x f h code hg hc => ?chain⟩
  · exact fun hn => admitStep_of_misdirect ha hr hn
  · exact fun hn h0 => admitStep_of_expired ha hr hn h0
  · exact fun hn h0 => admitStep_of_hop ha hr hn h0
  · exact fun y hn hy hd => admitStep_of_discard ha hr hn hy hd
  · exact fun y hn hy hd => admitStep_of_discardReport ha hr hn hy hd
  · exact fun hn => admitStep_of_release ha hr hn
  · exact release_of_shared hr
  · exact release_of_last hr
  · exact setRecord_record_same r .free s
  · exact fun k hk => setRecord_record_of_ne .free s hk
  case chain =>
    refine ⟨_, exec_endOfFrame_of_good hg, ?_⟩
    have hp : ((s.handedOver p x f h (.admitting (s.firstUnit x h))).port p).admission = .admitting (s.firstUnit x h) := by
      rw [handedOver_port]
    have hrep (q : Request) (b : Admitting) :
        ((s.handedOver p x f h (.admitting (s.firstUnit x h))).report q).setAdmission p (.admitting b) =
          ((s.handedOver p x f h .idle).report q).setAdmission p (.admitting b) := by
      rw [← handedOver_setAdmission s p x f h .idle, report_setAdmission, setAdmission_setAdmission]
    rcases hc with ⟨hd, hk, rfl⟩ | ⟨hd, hb, h0, rfl⟩
    · have hn : (s.firstUnit x h).next = .misdirect := by
        simp [State.firstUnit, choosePath_eq, hd, firstStep, hk]
      rw [admitStep_of_misdirect hp (handedOver_record ..) hn, hrep]
      exact admitStep_of_lastRelease _ rfl rfl
    · have hn : (s.firstUnit x h).next = .hopCheck := by
        simp [State.firstUnit, choosePath_steered hd hb, firstStep]
      rw [admitStep_of_expired hp (handedOver_record ..) hn h0, hrep]
      exact admitStep_of_lastRelease _ rfl rfl

/-! ## Targets (R77 to R79) -/

/-- A deque that takes no arrival is DETACHED or DRAINING. -/
theorem Deque.closed_of_not_open {q : Deque} (h : ¬ (q.state = .active ∨ q.state = .paused)) :
    q.state = .detached ∨ ∃ t n, q.state = .draining t n := by
  cases hs : q.state with
  | detached => exact .inl rfl
  | draining t n => exact .inr ⟨t, n, rfl⟩
  | active => exact absurd (.inl hs) h
  | paused => exact absurd (.inr hs) h

section
variable {s : State} {p : Port} {r : RecordNo} {h : HeldFrame} {d : DequeNo} {used : EntryUsed} {e : Insertion}

theorem placeTarget_of_reflected (hr : s.record r = .held h) (hb : (s.deque d).config.binding = .port p) :
    s.placeTarget p r used e d = s.report { code := .reflected, port := some p, deque := some d, entry := used.index?, summary := some h.header.summary } := by
  rw [State.placeTarget, if_pos hb, admissionReport_of_held hr]

theorem placeTarget_of_closed (hr : s.record r = .held h) (hb : (s.deque d).config.binding ≠ .port p)
    (hs : (s.deque d).state ≠ .active) (hs' : (s.deque d).state ≠ .paused) :
    s.placeTarget p r used e d = s.report { code := .dequeClosed, port := some p, deque := some d, entry := used.index?, summary := some h.header.summary } := by
  have hc := Deque.closed_of_not_open (q := s.deque d) fun h => h.elim hs hs'
  simp only [State.placeTarget, if_neg hb, arrive_of_closed hc, admissionReport_of_held hr]

theorem placeTarget_of_full (hr : s.record r = .held h) (hb : (s.deque d).config.binding ≠ .port p)
    (hs : (s.deque d).state = .active ∨ (s.deque d).state = .paused) (hm : r ∉ (s.deque d).entries)
    (hp : (s.deque d).config.policy = .refuse) (hl : (s.deque d).config.limit.toNat ≤ (s.deque d).entries.length) :
    s.placeTarget p r used e d = s.report { code := .dequeFull, port := some p, deque := some d, entry := used.index?, summary := some h.header.summary } := by
  simp only [State.placeTarget, if_neg hb, arrive_of_full_refuse hs hm hl hp, admissionReport_of_held hr]

theorem placeTarget_of_accepted (hb : (s.deque d).config.binding ≠ .port p) (ha : (s.arrive d r e).1 = .accepted) :
    s.placeTarget p r used e d = (s.arrive d r e).2 := by
  rw [State.placeTarget, if_neg hb]
  cases h : s.arrive d r e with
  | mk a t =>
    rw [h] at ha
    cases ha
    rfl

end

/-- An arrival below the limit, with the debt of the offer left open. -/
theorem arrive_of_room_held {s : State} {d : DequeNo} {r : RecordNo} {h : HeldFrame} (e : Insertion)
    (hr : s.record r = .held h) (hs : (s.deque d).state = .active ∨ (s.deque d).state = .paused)
    (hm : r ∉ (s.deque d).entries) (hl : (s.deque d).entries.length < (s.deque d).config.limit.toNat) :
    (s.arrive d r e).1 = .accepted ∧ ∃ w, (s.arrive d r e).2 =
      { (s.setDeque d { s.deque d with entries := place e r (s.deque d).entries }).setRecord r
          (.held { h with count := h.count + 1 }) with follow := w } := by
  have hr' : (s.setDeque d { s.deque d with entries := place e r (s.deque d).entries }).record r = .held h := hr
  rw [arrive_of_room hs hm hl, addRef_of_held hr']
  refine ⟨rfl, ?_⟩
  dsimp only
  split
  · exact offer_follow_eq _ _
  · exact ⟨_, rfl⟩

theorem search_of_entries {s t : State} (h : t.entries = s.entries) (d : Address) (c : BitVec 3) (p : Port) :
    t.search d c p = s.search d c p := by
  have hm : t.entryMatches d c p = s.entryMatches d c p := by
    funext i
    simp only [State.entryMatches, State.entry, h]
  unfold State.search State.matching
  rw [hm]

theorem lookup_of_none {s : State} {d : Address} {c : BitVec 3} {p : Port} (h : s.search d c p = none) (q : Port)
    (m : Option Summary) : s.lookup d c p q m = (s.defaultResult p, s) := by
  unfold State.lookup
  rw [h]

theorem setRecord_setRecord (r : RecordNo) (x y : FrameRecord) (s : State) :
    (s.setRecord r x).setRecord r y = s.setRecord r y := by
  simp only [State.setRecord, Vector.set_set]

/-- The last target of a copy and the release after it. -/
theorem place_then_release {v : State} {p : Port} {a : Admitting} {k : HeldFrame} {g : GeneralNo} {e : Insertion}
    {rule : HopRule} {used : EntryUsed} (ha : (v.port p).admission = .admitting a) (hr : v.record a.frame = .held k)
    (hc : 1 ≤ k.count) (hn : a.next = .place) (hx : a.result = some ⟨used, ⟨.forward [g], e, rule⟩⟩)
    (hk : a.nextTarget = some 1)
    (hst : (v.deque (general g)).state = .active ∨ (v.deque (general g)).state = .paused)
    (hbind : (v.deque (general g)).config.binding ≠ .port p) (hm : a.frame ∉ (v.deque (general g)).entries)
    (hl : (v.deque (general g)).entries.length < (v.deque (general g)).config.limit.toNat) :
    ∃ w, (v.admitStep p).admitStep p = State.setAdmission p .idle
      { v.setDeque (general g) { v.deque (general g) with entries := place e a.frame (v.deque (general g)).entries } with
        follow := w } := by
  obtain ⟨hacc, w, hw⟩ := arrive_of_room_held e hr hst hm hl
  obtain ⟨t, ht⟩ : ∃ t, t = (v.arrive (general g) a.frame e).2 := ⟨_, rfl⟩
  rw [← ht] at hw
  have htr : t.record a.frame = .held { k with count := k.count + 1 } := by
    rw [hw]
    exact setRecord_record_same a.frame _ _
  obtain ⟨a', h', hf, hn'⟩ : ∃ a', v.admitStep p = t.setAdmission p (.admitting a') ∧ a'.frame = a.frame ∧
      a'.next = .release := by
    refine ⟨{ a with nextTarget := none, next := .release }, ?_, rfl, rfl⟩
    rw [admitStep_of_place ha hr hn hx hk rfl (Nat.le_of_ble_eq_true rfl) rfl, placeTarget_of_accepted hbind hacc, ht,
      List.length_singleton, if_neg (Nat.lt_irrefl 1)]
  have hrel : (t.setAdmission p (.admitting a')).release a.frame =
      (t.setAdmission p (.admitting a')).setRecord a.frame (.held k) :=
    release_of_shared (s := t.setAdmission p (.admitting a')) (h := { k with count := k.count + 1 }) htr
      (Nat.lt_succ_of_le hc)
  refine ⟨w, ?_⟩
  rw [h', admitStep_of_release (setAdmission_admission ..) (hf ▸ htr) hn', hf, hrel, setRecord_setAdmission,
    setAdmission_setAdmission, hw]
  have hself := setRecord_of_eq (s := v.setDeque (general g)
    { v.deque (general g) with entries := place e a.frame (v.deque (general g)).entries }) (r := a.frame) hr
  refine congrArg (State.setAdmission p .idle) ?_
  conv_rhs => rw [← hself]
  simp only [State.setRecord, Vector.set_set]

/-- The five steps of a steered frame that a default entry forwards to one deque with room. -/
theorem finishAdmission_of_steered {u : State} {p : Port} {a : Admitting} {k : HeldFrame} {g : GeneralNo} {e : Insertion}
    {rule : HopRule} (ha : (u.port p).admission = .admitting a) (hr : u.record a.frame = .held k) (hn : a.next = .hopCheck)
    (hc : 1 ≤ k.count) (h0 : k.header.hop ≠ 0) (hs : u.search k.header.dest k.header.cls p = none)
    (hdef : (u.defaults.get p).disposition = ⟨.forward [g], e, rule⟩)
    (hst : (u.deque (general g)).state = .active ∨ (u.deque (general g)).state = .paused)
    (hbind : (u.deque (general g)).config.binding ≠ .port p) (hm : a.frame ∉ (u.deque (general g)).entries)
    (hl : (u.deque (general g)).entries.length < (u.deque (general g)).config.limit.toNat) :
    ∃ w, State.finishAdmission p 5 u =
      State.setAdmission p .idle { (u.setRecord a.frame (.held { k with
          header := { k.header with hop := loweredHop rule k.header.hop } })).setDeque (general g)
        { u.deque (general g) with entries := place e a.frame (u.deque (general g)).entries } with follow := w } := by
  obtain ⟨a1, h1, hf1, hn1⟩ : ∃ a1, u.admitStep p = u.setAdmission p (.admitting a1) ∧ a1.frame = a.frame ∧
      a1.next = .lookup := ⟨_, admitStep_of_hop ha hr hn h0, rfl, rfl⟩
  obtain ⟨a2, h2, hf2, hn2, hx2⟩ : ∃ a2, (u.setAdmission p (.admitting a1)).admitStep p = u.setAdmission p (.admitting a2) ∧
      a2.frame = a.frame ∧ a2.next = .act ∧ a2.result = some ⟨.default p, ⟨.forward [g], e, rule⟩⟩ := by
    have hfound : (u.setAdmission p (.admitting a1)).search k.header.dest k.header.cls p = none :=
      (search_of_entries (s := u) (by simp) ..).trans hs
    have hlook : (u.setAdmission p (.admitting a1)).lookup k.header.dest k.header.cls p p (some k.header.summary) =
        (⟨.default p, ⟨.forward [g], e, rule⟩⟩, u.setAdmission p (.admitting a1)) := by
      rw [lookup_of_none hfound, ← hdef]
      rfl
    refine ⟨{ a1 with
      result := some ⟨.default p, ⟨.forward [g], e, rule⟩⟩
      next := .act }, (admitStep_of_lookup (setAdmission_admission ..) (hf1 ▸ hr) hn1).trans ?_, hf1, rfl, rfl⟩
    rw [hlook, setAdmission_setAdmission]
  obtain ⟨a3, h3, hf3, hn3, hx3, hk3⟩ : ∃ a3, (u.setAdmission p (.admitting a2)).admitStep p =
      (u.setRecord a.frame (.held { k with
        header := { k.header with hop := loweredHop rule k.header.hop } })).setAdmission p (.admitting a3) ∧
      a3.frame = a.frame ∧ a3.next = .place ∧ a3.result = some ⟨.default p, ⟨.forward [g], e, rule⟩⟩ ∧
      a3.nextTarget = some 1 := by
    refine ⟨{ a2 with nextTarget := some 1, next := .place },
      (admitStep_of_forward (setAdmission_admission ..) (hf2 ▸ hr) hn2 hx2 rfl).trans ?_, hf2, rfl, hx2, rfl⟩
    rw [hf2, setRecord_setAdmission, setAdmission_setAdmission]
  obtain ⟨v, hv⟩ : ∃ v, v = u.setRecord a.frame (.held { k with
      header := { k.header with hop := loweredHop rule k.header.hop } }) := ⟨_, rfl⟩
  have hvr : v.record a.frame = .held { k with header := { k.header with hop := loweredHop rule k.header.hop } } := by
    rw [hv]
    exact setRecord_record_same ..
  have hdq : (v.setAdmission p (.admitting a3)).deque (general g) = u.deque (general g) := by rw [hv]; rfl
  rw [← hv] at h3
  obtain ⟨w, hw⟩ := place_then_release (v := v.setAdmission p (.admitting a3)) (setAdmission_admission ..)
    (k := { k with header := { k.header with hop := loweredHop rule k.header.hop } }) (hf3.symm ▸ hvr) hc hn3 hx3 hk3 (by rwa [hdq]) (by rwa [hdq]) (by rwa [hdq, hf3]) (by rwa [hdq])
  refine ⟨w, ?_⟩
  rw [hdq, hf3, setDeque_setAdmission] at hw
  rw [← hv]
  simp only [State.finishAdmission, h1, h2, h3, hw]
  exact setAdmission_setAdmission p (.admitting a3) .idle { v.setDeque (general g)
    { u.deque (general g) with entries := place e a.frame (u.deque (general g)).entries } with follow := w }

theorem handedOver_search (s : State) (p : Port) (x : Reception) (f : ReceivingFrame) (h : Header) (a : AdmissionUnit)
    (d : Address) (c : BitVec 3) (q : Port) : (s.handedOver p x f h a).search d c q = s.search d c q :=
  search_of_entries (by simp [State.handedOver]) ..

/-- Settles O15: lookup, act, each outcome of a target, and the five steps one after the other. -/
theorem steeredFrameIsPlaced : Obligations.SteeredFrameIsPlaced := by
  unfold Obligations.SteeredFrameIsPlaced
  refine ⟨fun s p a h ha hn hr => admitStep_of_lookup ha hr hn,
    fun s p a h x ts ha hn hx hd hr => admitStep_of_forward ha hr hn hx hd,
    fun s p a h x ts k g ha hn hx hk hr hd hl h1 hg => ?place,
    fun s p x f h g e rule hg hd hb h0 hs hdef hst hbind hm hl => ?chain⟩
  case place =>
    have hstep := admitStep_of_place ha hr hn hx hk hd hl hg
    dsimp only
    refine ⟨fun hb => ?_, fun hb hs hs' => ?_, fun hb hs hm hp hl' => ?_, fun hb hacc => ?_⟩
    · rw [hstep, placeTarget_of_reflected hr hb]
      rfl
    · rw [hstep, placeTarget_of_closed hr hb hs hs']
      rfl
    · rw [hstep, placeTarget_of_full hr hb hs hm hp hl']
      rfl
    · rw [hstep, placeTarget_of_accepted hb hacc]
  case chain =>
    refine ⟨_, exec_endOfFrame_of_good hg, ?_⟩
    have hp : ((s.handedOver p x f h (.admitting (s.firstUnit x h))).port p).admission = .admitting (s.firstUnit x h) := by
      rw [handedOver_port]
    obtain ⟨w, hw⟩ := finishAdmission_of_steered hp (handedOver_record ..)
      (by simp [State.firstUnit, choosePath_steered hd hb, firstStep]) (Nat.le_refl 1) h0
      ((handedOver_search ..).trans hs) hdef hst hbind hm hl
    dsimp only
    rw [hw]
    refine ⟨?_, ?_, fun d hne => ?_, fun r hne => ?_, ?_, ?_, ?_, ?_, ?_, fun q hq => ?_, ?_⟩
    · refine (congrArg Deque.entries (setDeque_deque_same ..)).trans ?_
      cases e <;> rfl
    · exact setRecord_record_same x.record _ (s.handedOver p x f h (.admitting (s.firstUnit x h)))
    · exact setDeque_deque_of_ne _ _ hne
    · exact (setRecord_record_of_ne _ _ hne).trans (setRecord_record_of_ne _ _ hne)
    · simp [State.handedOver]
    · simp [State.handedOver]
    · simp [State.handedOver]
    · simp [setAdmission_eq, State.port, State.handedOver]
    · exact setAdmission_admission ..
    · exact (setPort_port_of_ne _ _ hq).trans (setPort_port_of_ne _ _ hq)
    · simp [SameElsewhere, State.handedOver]

end Sys2Proof.Machine
end

section
/-! SUPPORT. The families of the lookup, of the damage that strikes, and of selection and take. -/

namespace Sys2Proof.Machine

open Sys2Proof

/-! ## The lookup (R8 to R12) -/

theorem mem_matching {s : State} {d : Address} {c : BitVec 3} {p : Port} {i : EntryNo} :
    i ∈ s.matching d c p ↔ ∃ y, (s.entry i).body = .valid y ∧ y.matches d c p = true := by
  simp only [State.matching, List.mem_filter, List.mem_finRange, true_and, State.entryMatches]
  cases (s.entry i).body <;> simp

theorem search_of_nothing {s : State} {d : Address} {c : BitVec 3} {p : Port} (h : s.matching d c p = []) :
    s.search d c p = none := by
  unfold State.search
  rw [h]

theorem search_of_one {s : State} {d : Address} {c : BitVec 3} {p : Port} {i : EntryNo} (h : s.matching d c p = [i]) :
    s.search d c p = some i := by
  unfold State.search
  rw [h]

theorem lookup_of_sound {s : State} {d : Address} {c : BitVec 3} {p : Port} {i : EntryNo} {x : Content}
    (h : s.search d c p = some i) (hb : (s.entry i).body = .valid (.sound x)) (q : Port) (m : Option Summary) :
    s.lookup d c p q m = (⟨.keyed i, x.disposition⟩, s) := by
  unfold State.lookup
  rw [h]
  dsimp only
  rw [hb]

theorem lookup_of_damaged {s : State} {d : Address} {c : BitVec 3} {p : Port} {i : EntryNo} {b : Vector Byte 11}
    (h : s.search d c p = some i) (hb : (s.entry i).body = .valid (.damaged b)) (q : Port) (m : Option Summary) :
    s.lookup d c p q m = (s.defaultResult p, s.markSuspect i (.damaged b) q m) := by
  unfold State.lookup
  rw [h]
  dsimp only
  rw [hb]

/-- Settles O16: the search finds what matches, and the parity check parts the two cases. -/
theorem lookupRule : Obligations.LookupRule := by
  unfold Obligations.LookupRule
  intro s d c p q m
  refine ⟨fun h => lookup_of_none (search_of_nothing h) q m, fun i x h hb => lookup_of_sound (search_of_one h) hb q m,
    fun i b h hb => lookup_of_damaged (search_of_one h) hb q m, fun i => mem_matching, fun x => ?_, fun b => ?_⟩
  · cases p <;> simp [Stored.matches, Key.matches, Port.index, and_assoc]
  · cases p <;> simp [Stored.matches, Port.index, and_assoc]

/-! ## Damage strikes first (entry 7) -/

theorem strike_shape (us : List Upset) (s : State) :
    s.strike us = { s with entries := (s.strike us).entries, ecc := (s.strike us).ecc } := by
  ext1 <;> simp

/-- Settles O17: the commands that carry damage are their meanings on the storage that it has struck. -/
theorem upsetsStrikeFirst : Obligations.UpsetsStrikeFirst := by
  unfold Obligations.UpsetsStrikeFirst
  refine ⟨fun s us => ⟨fun p => rfl, rfl, fun ops => rfl, fun ops => rfl, fun ops => rfl, strike_shape us s⟩,
    fun s i x b h => ?_, fun s i y h => ?_, fun s c => rfl⟩
  · simp only [State.strike, List.foldl_cons, List.foldl_nil, State.strikeOne, h]
  · simp only [State.strike, List.foldl_cons, List.foldl_nil, State.strikeOne, h]

/-! ## Selection (R86, R88) -/

theorem candidate_iff {s : State} {p : Port} {d : DequeNo} :
    s.candidate p d = true ↔ (s.deque d).config.binding = .port p ∧ (s.deque d).state = .active ∧
      (s.deque d).entries ≠ [] ∧ ((s.port p).held = true → d = controlDeque p) := by
  simp only [State.candidate, Bool.and_eq_true, decide_eq_true_eq, and_assoc, Bool.or_eq_true, Bool.not_eq_true']
  refine and_congr_right fun _ => and_congr_right fun _ => and_congr_right fun _ => ?_
  cases (s.port p).held <;> simp

/-- The search from a marker visits the deques by rising distance from it. -/
theorem searchDistance_next (m : GeneralNo) (k : Fin 28) :
    searchDistance m ⟨(m.val + 1 + k.val) % 28, Nat.mod_lt _ (by decide)⟩ = k.val := by
  simp only [searchDistance]
  omega

theorem searchOrder_pairwise (m : GeneralNo) :
    (searchOrder m).Pairwise fun g g' => searchDistance m g ≤ searchDistance m g' := by
  refine List.pairwise_map.mpr ((List.pairwise_lt_finRange 28).imp fun h => ?_)
  rw [searchDistance_next, searchDistance_next]
  exact Nat.le_of_lt h

theorem mem_searchOrder (m g : GeneralNo) : g ∈ searchOrder m := by
  refine List.mem_map.mpr ⟨⟨searchDistance m g, Nat.mod_lt _ (by decide)⟩, List.mem_finRange _, Fin.ext ?_⟩
  simp only [searchDistance]
  omega

/-- A candidate at a level. -/
def State.candidateAt (s : State) (p : Port) (v : Fin 8) (g : GeneralNo) : Prop :=
  s.candidate p (general g) = true ∧ (s.deque (general g)).config.priority = some v.castSucc

theorem levelChoice_eq_none {s : State} {p : Port} {v : Fin 8} (h : s.levelChoice p v = none) (g : GeneralNo) :
    ¬ s.candidateAt p v g := by
  have := List.find?_eq_none.mp h g (mem_searchOrder ..)
  simpa [State.candidateAt] using this

theorem levelChoice_eq_some {s : State} {p : Port} {v : Fin 8} {g : GeneralNo} (h : s.levelChoice p v = some g) :
    s.candidateAt p v g ∧
      ∀ g', s.candidateAt p v g' → searchDistance (s.marker p v) g ≤ searchDistance (s.marker p v) g' := by
  obtain ⟨hg, before, after, hl, hb⟩ := List.find?_eq_some_iff_append.mp h
  refine ⟨by simpa [State.candidateAt] using hg, fun g' hg' => ?_⟩
  have hmem := mem_searchOrder (s.marker p v) g'
  have hpair := searchOrder_pairwise (s.marker p v)
  rw [hl] at hmem hpair
  rcases List.mem_append.mp hmem with h1 | h1
  · have := hb g' h1
    simp [hg'.1, hg'.2] at this
  · rcases List.mem_cons.mp h1 with rfl | h2
    · exact Nat.le_refl _
    · exact List.rel_of_pairwise_cons (List.pairwise_append.mp hpair).2.1 h2

theorem levels_pairwise : levels.Pairwise (· > ·) := by decide

theorem mem_levels (v : Fin 8) : v ∈ levels := by
  revert v
  decide

theorem select_eq_control {s : State} {p : Port} : s.select p = some .control ↔ s.candidate p (controlDeque p) = true := by
  unfold State.select
  split
  · simp [*]
  · rename_i hc
    refine iff_of_false (fun h => ?_) hc
    obtain ⟨v, -, hv⟩ := List.exists_of_findSome?_eq_some h
    simp at hv

/-- With no candidate in the control deque, selection looks at the levels. -/
theorem select_of_general {s : State} {p : Port} (h : ¬ s.candidate p (controlDeque p) = true) :
    s.select p = levels.findSome? fun v => (s.levelChoice p v).map (.atLevel v) := by
  rw [State.select, if_neg h]

theorem select_eq_atLevel {s : State} {p : Port} {v : Fin 8} {g : GeneralNo} (h : s.select p = some (.atLevel v g)) :
    s.candidate p (controlDeque p) = false ∧ s.levelChoice p v = some g ∧ ∀ w, v < w → s.levelChoice p w = none := by
  have hc : ¬ s.candidate p (controlDeque p) = true := fun hc => by
    rw [select_eq_control.mpr hc] at h
    cases h
  rw [select_of_general hc] at h
  obtain ⟨l1, a, l2, hl, ha, hb⟩ := List.findSome?_eq_some_iff.mp h
  obtain ⟨g', hg', he⟩ := Option.map_eq_some_iff.mp ha
  cases he
  refine ⟨by simpa using hc, hg', fun w hw => ?_⟩
  have hmem := mem_levels w
  have hpair := levels_pairwise
  rw [hl] at hmem hpair
  rcases List.mem_append.mp hmem with h1 | h1
  · exact Option.map_eq_none_iff.mp (hb w h1)
  · rcases List.mem_cons.mp h1 with rfl | h2
    · exact absurd hw (lt_irrefl _)
    · exact absurd hw (lt_asymm (List.rel_of_pairwise_cons (List.pairwise_append.mp hpair).2.1 h2))

theorem select_eq_none {s : State} {p : Port} (h : s.select p = none) :
    s.candidate p (controlDeque p) = false ∧ ∀ v, s.levelChoice p v = none := by
  have hc : ¬ s.candidate p (controlDeque p) = true := fun hc => by
    rw [select_eq_control.mpr hc] at h
    cases h
  rw [select_of_general hc] at h
  exact ⟨by simpa using hc, fun v => Option.map_eq_none_iff.mp (List.findSome?_eq_none_iff.mp h v (mem_levels v))⟩

/-- Settles O18: selection by the control deque, the levels from the highest, and the circular search in a level. -/
theorem selectionRule : Obligations.SelectionRule := by
  unfold Obligations.SelectionRule
  refine fun s p => ⟨select_eq_control, fun v g h => ?_, fun h => ?_, fun d => candidate_iff⟩
  · obtain ⟨hc, hg, hw⟩ := select_eq_atLevel h
    obtain ⟨⟨hcand, hprio⟩, hnear⟩ := levelChoice_eq_some hg
    exact ⟨hc, hcand, hprio, fun w g' hvw h1 h2 => levelChoice_eq_none (hw w hvw) g' ⟨h1, h2⟩,
      fun g' h1 h2 => hnear g' ⟨h1, h2⟩⟩
  · obtain ⟨hc, hn⟩ := select_eq_none h
    exact ⟨hc, fun g v h1 h2 => levelChoice_eq_none (hn v) g ⟨h1, h2⟩⟩

/-! ## The take (R37, R87 to R91) -/

theorem exec_takeAttempt (p : Port) (s : State) :
    exec (.takeAttempt p) s = .next ((s.settle (.takeAttempt p)).takeAttempt p) := rfl

theorem takeAttempt_of_choice {s : State} {p : Port} {c : Choice} (ht : (s.port p).transmitter = .idle)
    (hu : (s.port p).link.isUp = true) (hc : s.select p = some c) : s.takeAttempt p = s.takeFrom p c := by
  unfold State.takeAttempt
  rw [ht]
  dsimp only
  rw [if_pos hu, hc]

/-- The head of a deque leaves it, and the marker of its level moves. -/
def State.headTaken (s : State) (p : Port) (c : Choice) (rest : List RecordNo) : State :=
  (s.setDeque (c.deque p) { s.deque (c.deque p) with entries := rest }).moveMarker p c

theorem takeFrom_of_head {s : State} {p : Port} {c : Choice} {r : RecordNo} {rest : List RecordNo}
    (h : (s.deque (c.deque p)).entries = r :: rest) :
    s.takeFrom p c = (s.headTaken p c rest).sendOrDrop p (c.deque p) r := by
  unfold State.takeFrom
  dsimp only
  rw [h]
  rfl

theorem headTaken_record (s : State) (p : Port) (c : Choice) (rest : List RecordNo) (r : RecordNo) :
    (s.headTaken p c rest).record r = s.record r := by
  cases c <;> rfl

theorem headTaken_dwell (s : State) (p : Port) (c : Choice) (rest : List RecordNo) :
    ((s.headTaken p c rest).deque (c.deque p)).config.dwell = (s.deque (c.deque p)).config.dwell := by
  have h : (s.headTaken p c rest).deque (c.deque p) = { s.deque (c.deque p) with entries := rest } := by
    cases c <;> exact setDeque_deque_same ..
  rw [h]

theorem headTaken_timebase (s : State) (p : Port) (c : Choice) (rest : List RecordNo) :
    (s.headTaken p c rest).timebase = s.timebase := by
  cases c <;> rfl

theorem headTaken_expired {s : State} {p : Port} {c : Choice} {rest : List RecordNo} {r : RecordNo} {h : HeldFrame}
    (hr : s.record r = .held h) :
    (s.headTaken p c rest).expired (c.deque p) r = pastDwell (s.deque (c.deque p)).config.dwell h.stamp s.timebase := by
  simp only [State.expired, State.held?, headTaken_record, hr, headTaken_dwell, headTaken_timebase]

theorem pastDwell_iff {limit : BitVec 16} {stamp now : Stamp} :
    pastDwell limit stamp now = true ↔ limit ≠ 0 ∧ limit.toNat * 100 < (now - stamp).toNat := by
  simp [pastDwell]

theorem sendOrDrop_of_sent {s : State} {p : Port} {d : DequeNo} {r : RecordNo} {h : HeldFrame}
    (hr : s.record r = .held h) (he : ¬ s.expired d r = true) :
    s.sendOrDrop p d r = s.setTransmitter p (.sending r d (if h.length ≤ 8 then [] else h.cells)) := by
  rw [State.sendOrDrop, if_neg he]
  simp only [State.cellsToRead, State.held?, hr, HeldFrame.payloadCells]

theorem sendOrDrop_of_dropped {s : State} {p : Port} {d : DequeNo} {r : RecordNo} {h : HeldFrame}
    (hr : s.record r = .held h) (he : s.expired d r = true) :
    s.sendOrDrop p d r = ((s.report
      { code := .dwellExpired, port := some p, deque := some d, summary := some h.header.summary }).release r).raise
        (.takeAttempt p) := by
  rw [State.sendOrDrop, if_pos he, summaryOf_of_held hr]

/-- Whatever becomes of the frame, the markers are those that the take has left. -/
theorem sendOrDrop_markers (s : State) (p q : Port) (d : DequeNo) (r : RecordNo) :
    ((s.sendOrDrop p d r).port q).markers = (s.port q).markers := by
  unfold State.sendOrDrop
  split
  · exact congrArg PortState.markers (port_congr (by simp) q)
  · by_cases hq : q = p
    · subst hq
      simp [setTransmitter_eq]
    · rw [setTransmitter_eq, setPort_port_of_ne _ _ hq]

theorem headTaken_marker_of_ne {p q : Port} (hq : q ≠ p) (s : State) (c : Choice) (rest : List RecordNo) (w : Fin 8) :
    (s.headTaken p c rest).marker q w = s.marker q w := by
  cases c with
  | control => rfl
  | atLevel v g => simp only [State.marker, State.headTaken, State.moveMarker, updPort_port_of_ne _ _ hq]; rfl

theorem headTaken_marker_level (s : State) (p : Port) (v : Fin 8) (g : GeneralNo) (rest : List RecordNo) (w : Fin 8) :
    (s.headTaken p (.atLevel v g) rest).marker p w = if w = v then g else s.marker p w := by
  simp only [State.marker, State.headTaken, State.moveMarker, updPort_port_same]
  by_cases h : w = v
  · subst h
    simp
  · have hv : v.val ≠ w.val := fun h' => h (Fin.ext h'.symm)
    simp [h, Vector.getElem_set_ne, hv]
    rfl

/-- Settles O19: the dwell test parts the two outcomes of a take. -/
theorem takeAttempt : Obligations.TakeAttempt := by
  unfold Obligations.TakeAttempt
  have taken {s : State} {p : Port} {c : Choice} {r : RecordNo} {rest : List RecordNo}
      (ht : (s.port p).transmitter = .idle) (hu : (s.port p).link.isUp = true)
      (hc : (s.settle (.takeAttempt p)).select p = some c) (he : (s.deque (c.deque p)).entries = r :: rest) :
      exec (.takeAttempt p) s =
        .next (((s.settle (.takeAttempt p)).headTaken p c rest).sendOrDrop p (c.deque p) r) := by
    rw [exec_takeAttempt, takeAttempt_of_choice (s := s.settle (.takeAttempt p)) ht hu hc,
      takeFrom_of_head (s := s.settle (.takeAttempt p)) he]
  have test {s : State} {p : Port} {c : Choice} {r : RecordNo} {h : HeldFrame} (rest : List RecordNo)
      (hr : s.record r = .held h) : ((s.settle (.takeAttempt p)).headTaken p c rest).expired (c.deque p) r = true ↔
        (s.deque (c.deque p)).config.dwell ≠ 0 ∧
          (s.deque (c.deque p)).config.dwell.toNat * 100 < (s.timebase - h.stamp).toNat := by
    rw [headTaken_expired (s := s.settle (.takeAttempt p)) hr]
    exact pastDwell_iff
  have record {s : State} {p : Port} {c : Choice} {r : RecordNo} {h : HeldFrame} (rest : List RecordNo)
      (hr : s.record r = .held h) : ((s.settle (.takeAttempt p)).headTaken p c rest).record r = .held h :=
    (headTaken_record ..).trans hr
  refine ⟨fun s p c r rest h ht hu hc he hr hd => ?sent, fun s p c r rest h ht hu hc he hr hd hl => ?dropped,
    fun s p => ⟨rfl, fun v g => rfl⟩, fun s p c r rest h ht hu hc he hr => ?markers, fun s p h => ?nothing⟩
  case sent =>
    rw [taken ht hu hc he, sendOrDrop_of_sent (record rest hr)]
    · rfl
    · rw [test rest hr]
      rintro ⟨h0, hlt⟩
      rcases hd with hd | hd
      · exact h0 hd
      · omega
  case dropped =>
    rw [taken ht hu hc he, sendOrDrop_of_dropped (record rest hr) ((test rest hr).mpr ⟨hd, hl⟩)]
    rfl
  case markers =>
    have hm (q : Port) (w : Fin 8) :
        (((s.settle (.takeAttempt p)).headTaken p c rest).sendOrDrop p (c.deque p) r).marker q w =
          ((s.settle (.takeAttempt p)).headTaken p c rest).marker q w := by
      rw [State.marker, sendOrDrop_markers]
      rfl
    refine ⟨_, taken ht hu hc he, fun v g hv => ?_, fun hv w => ?_, fun q w hq => ?_⟩
    · subst hv
      refine ⟨?_, fun w hw => ?_⟩
      · rw [hm, headTaken_marker_level, if_pos rfl]
      · rw [hm, headTaken_marker_level, if_neg hw]
        rfl
    · subst hv
      rw [hm]
      rfl
    · rw [hm, headTaken_marker_of_ne hq]
      rfl
  case nothing => rw [exec_takeAttempt, takeAttempt_of_none (s := s.settle (.takeAttempt p)) h]

end Sys2Proof.Machine
end

section
/-! SUPPORT. The families of the transmitters: completion, cell reads, abort. -/

namespace Sys2Proof.Machine

open Sys2Proof

/-! ## What looks at no port, beside the ports -/

theorem request_withPorts (q : Request) (x : PerPort PortState) (s : State) :
    (s.withPorts x).request q = ((s.request q).1, (s.request q).2.withPorts x) := by
  have h : (s.withPorts x).exc = s.exc := rfl
  unfold State.request
  rw [h]
  split
  · simp only
    split <;> rfl
  · rfl

theorem detect_withPorts (l : Location) (p : Port) (d : Option DequeNo) (m : Option Summary) (x : PerPort PortState)
    (s : State) : (s.withPorts x).detect l p d m = ((s.detect l p d m).1, (s.detect l p d m).2.withPorts x) := by
  have h : (s.withPorts x).check = s.check := rfl
  unfold State.detect
  rw [h]
  split
  · exact request_withPorts _ x { s with check := s.check.note l }
  · rfl

theorem checkedReads_withPorts (p : Port) (d : DequeNo) (m : Option Summary) (cs : List CellNo) (x : PerPort PortState)
    (s : State) :
    (s.withPorts x).checkedReads p d m cs = ((s.checkedReads p d m cs).1, (s.checkedReads p d m cs).2.withPorts x) := by
  induction cs generalizing s with
  | nil => rfl
  | cons c cs ih =>
    have h : (s.withPorts x).eccOf c = s.eccOf c := rfl
    simp only [State.checkedReads, h]
    cases s.eccOf c with
    | sound => exact ih s
    | corrected =>
      dsimp only
      rw [detect_withPorts]
      exact ih _
    | uncorrected =>
      dsimp only
      rw [detect_withPorts]

theorem release_withPorts (r : RecordNo) (x : PerPort PortState) (s : State) :
    (s.withPorts x).release r = (s.release r).withPorts x := by
  have h : (s.withPorts x).record r = s.record r := rfl
  unfold State.release
  rw [h]
  split
  · split <;> rfl
  · rfl

theorem release_setPort (p : Port) (y : PortState) (r : RecordNo) (s : State) :
    (s.setPort p y).release r = (s.release r).setPort p y :=
  setPort_of_withPorts (fun x s => release_withPorts r x s) p y s

theorem checkedReads_setPort (p q : Port) (d : DequeNo) (m : Option Summary) (cs : List CellNo) (y : PortState) (s : State) :
    (s.setPort q y).checkedReads p d m cs = ((s.checkedReads p d m cs).1, (s.checkedReads p d m cs).2.setPort q y) := by
  have h : (s.checkedReads p d m cs).2.ports = s.ports := by simp
  rw [setPort_eq_withPorts, checkedReads_withPorts, setPort_eq_withPorts, h]

/-! ## The transmitter's state does not matter to the end of a transmission -/

theorem endTransmission_setTransmitter (p : Port) (r : RecordNo) (x : Transmitter) (s : State) :
    (s.setTransmitter p x).endTransmission p r = s.endTransmission p r := by
  simp only [State.endTransmission, setTransmitter_eq, release_setPort, setPort_port_same, setPort_setPort, release_port]

theorem setLineOut_setTransmitter (p : Port) (x : Transmitter) (o : LineFrame) (s : State) :
    (s.setTransmitter p x).setLineOut p o = (s.setLineOut p o).setTransmitter p x := by
  simp only [setLineOut_eq, setTransmitter_eq, setPort_port_same, setPort_setPort]

theorem report_setTransmitter (p : Port) (x : Transmitter) (q : Request) (s : State) :
    (s.setTransmitter p x).report q = (s.report q).setTransmitter p x := by
  rw [setTransmitter_eq, report_setPort, setTransmitter_eq, report_port]

theorem poisonedEnd_setTransmitter (p : Port) (r : RecordNo) (d : DequeNo) (c : CellNo) (chain : Option Byte)
    (x : Transmitter) (s : State) :
    (s.setTransmitter p x).poisonedEnd p r d c chain = s.poisonedEnd p r d c chain := by
  have hb : (s.setTransmitter p x).bytesBefore r c = s.bytesBefore r c := rfl
  have hm (o : LineFrame) : ((s.setTransmitter p x).setLineOut p o).summaryOf r = (s.setLineOut p o).summaryOf r := rfl
  simp only [State.poisonedEnd, State.lostByCheck, hb, hm]
  rw [setLineOut_setTransmitter, report_setTransmitter, endTransmission_setTransmitter]

/-! ## Reads up to a cell with an error (R93, R94) -/

theorem setEcc_of_eq {s : State} {c : CellNo} {x : Ecc} (h : s.eccOf c = x) : s.setEcc c x = s := by
  rw [← h, State.setEcc, State.eccOf]
  simp

theorem sound_setEcc {s : State} {l : List CellNo} {c : CellNo} {x : Ecc} (h : ∀ k ∈ l, s.eccOf k = .sound) (hc : c ∉ l) :
    ∀ k ∈ l, (s.setEcc c x).eccOf k = .sound := fun k hk =>
  (setEcc_eccOf_of_ne x s (ne_of_mem_of_not_mem hk hc)).trans (h k hk)

theorem strike_uncorrected {s : State} {c : CellNo} : s.strikeOne (.cell c .uncorrected) = s.setEcc c .uncorrected := rfl

theorem strike_corrected {s : State} {c : CellNo} (h : s.eccOf c ≠ .uncorrected) :
    s.strikeOne (.cell c .corrected) = s.setEcc c .corrected := by
  unfold State.strikeOne
  dsimp only
  split
  · rfl
  · rename_i hs
    refine (setEcc_of_eq ?_).symm
    cases hc : s.eccOf c with
    | sound => exact absurd hc hs
    | corrected => rfl
    | uncorrected => exact absurd hc h

theorem strike_corrected_of_uncorrected {s : State} {c : CellNo} (h : s.eccOf c = .uncorrected) :
    s.strikeOne (.cell c .corrected) = s := by
  simp [State.strikeOne, h]

/-- The reads up to the first occurrence of a cell. -/
theorem readUpTo_of_sending {s : State} {p : Port} {c : CellNo} {fault : CellFault} {r : RecordNo} {d : DequeNo}
    {before after : List CellNo} (h : (s.port p).transmitter = .sending r d (before ++ c :: after)) (hc : c ∉ before) :
    s.readUpTo p c fault = ((s.strikeOne (.cell c fault)).readCells p r d (before ++ c :: after) (before.length + 1)).2 := by
  have hm : c ∈ before ++ c :: after := by simp
  simp only [State.readUpTo, h, if_pos hm, List.idxOf_append_of_notMem hc, List.idxOf_cons_self, Nat.add_zero]

theorem take_upTo (before after : List CellNo) (c : CellNo) :
    (before ++ c :: after).take (before.length + 1) = before ++ [c] := by
  simp [List.take_append]

theorem drop_upTo (before after : List CellNo) (c : CellNo) : (before ++ c :: after).drop (before.length + 1) = after := by
  simp [List.drop_append]

/-- Reads up to a cell with a corrected error, all sound before it. -/
theorem readCells_of_corrected {s : State} {p : Port} {r : RecordNo} {d : DequeNo} {before after : List CellNo} {c : CellNo}
    (hb : ∀ k ∈ before, s.eccOf k = .sound) (hc : s.eccOf c = .corrected) :
    s.readCells p r d (before ++ c :: after) (before.length + 1) =
      (false, (s.detect (.ce c) p (some d) (s.summaryOf r)).2.setTransmitter p (.sending r d after)) := by
  have hr : s.checkedReads p d (s.summaryOf r) (before ++ [c]) = (none, (s.detect (.ce c) p (some d) (s.summaryOf r)).2) := by
    rw [checkedReads_append_of_sound hb, State.checkedReads, hc]
    rfl
  simp only [State.readCells, take_upTo, drop_upTo, hr]

/-- Reads of a list with an uncorrected error, all sound before it: how far they were to go does not matter. -/
theorem readCells_of_uncorrected {s : State} {p : Port} {r : RecordNo} {d : DequeNo} {before after : List CellNo} {c : CellNo}
    {unread : List CellNo} {n : Nat} (hn : unread.take n = before ++ c :: after) (hb : ∀ k ∈ before, s.eccOf k = .sound)
    (hc : s.eccOf c = .uncorrected) :
    s.readCells p r d unread n =
      (true, (s.detect (.ue c) p (some d) (s.summaryOf r)).2.poisonedEnd p r d c
        (s.detect (.ue c) p (some d) (s.summaryOf r)).1) := by
  have hr : s.checkedReads p d (s.summaryOf r) (before ++ c :: after) =
      (some (c, (s.detect (.ue c) p (some d) (s.summaryOf r)).1), (s.detect (.ue c) p (some d) (s.summaryOf r)).2) := by
    rw [checkedReads_append_of_sound hb, State.checkedReads, hc]
  simp only [State.readCells, hn, hr]

/-! ## Completion (R92, R99) -/

/-- How a transmission ends after the reads of its last cells. -/
def State.ended (p : Port) (r : RecordNo) (d : DequeNo) (x : Option (CellNo × Option Byte) × State) : State :=
  match x with
  | (some (c, chain), t) => t.poisonedEnd p r d c chain
  | (none, t) => (t.setLineOut p (completeFrame (t.sentBytes r))).endTransmission p r

theorem exec_transmissionComplete {s : State} {p : Port} {r : RecordNo} {d : DequeNo} {unread : List CellNo}
    (h : (s.port p).transmitter = .sending r d unread) :
    exec (.transmissionComplete p) s = .next (State.ended p r d (s.checkedReads p d (s.summaryOf r) unread)) := by
  simp only [exec, execTransmissionComplete, h, State.readCells, List.take_length]
  rcases s.checkedReads p d (s.summaryOf r) unread with ⟨x, t⟩
  cases x with
  | some y => rfl
  | none =>
    have hb : (t.setTransmitter p (.sending r d (unread.drop unread.length))).sentBytes r = t.sentBytes r := rfl
    dsimp only [State.ended]
    rw [hb, setLineOut_setTransmitter, endTransmission_setTransmitter]

theorem checkedReads_setTransmitter (p : Port) (d : DequeNo) (m : Option Summary) (cs : List CellNo) (x : Transmitter)
    (s : State) : (s.setTransmitter p x).checkedReads p d m cs =
      ((s.checkedReads p d m cs).1, (s.checkedReads p d m cs).2.setTransmitter p x) := by
  rw [setTransmitter_eq, checkedReads_setPort, setTransmitter_eq, checkedReads_port]

theorem ended_setTransmitter (p : Port) (r : RecordNo) (d : DequeNo) (x : Option (CellNo × Option Byte)) (y : Transmitter)
    (t : State) : State.ended p r d (x, t.setTransmitter p y) = State.ended p r d (x, t) := by
  cases x with
  | some z => exact poisonedEnd_setTransmitter ..
  | none =>
    have hb : (t.setTransmitter p y).sentBytes r = t.sentBytes r := rfl
    dsimp only [State.ended]
    rw [hb, setLineOut_setTransmitter, endTransmission_setTransmitter]

theorem sentBytes_of_held {s : State} {r : RecordNo} {h : HeldFrame} (hr : s.record r = .held h) :
    s.sentBytes r = h.header.encode (h.length - 8) ++ readStored h.cells s.mem 8 (h.length - 8) := by
  simp only [State.sentBytes, State.held?, hr, HeldFrame.sentBytes]

theorem detect_summaryOf (l : Location) (p : Port) (d : Option DequeNo) (m : Option Summary) (s : State) (r : RecordNo) :
    (s.detect l p d m).2.summaryOf r = s.summaryOf r := by
  simp [State.summaryOf, State.held?, State.record]

/-- Settles O20: the last reads find nothing, or the first error among them decides. -/
theorem transmissionComplete : Obligations.TransmissionComplete := by
  unfold Obligations.TransmissionComplete
  intro s p r d unread h ht hr
  refine ⟨fun hs => ?sound, fun before c after hu hb => ⟨fun hc => ?uncorrected, fun hc => ?corrected⟩⟩
  case sound =>
    rw [exec_transmissionComplete ht, checkedReads_of_sound hs, State.ended, sentBytes_of_held hr]
    rfl
  case uncorrected =>
    subst hu
    have hn : c ∉ before := fun hm => by
      have := hb c hm
      rw [hc] at this
      cases this
    have hrd : s.readUpTo p c .uncorrected = (s.detect (.ue c) p (some d) (s.summaryOf r)).2.poisonedEnd p r d c
        (s.detect (.ue c) p (some d) (s.summaryOf r)).1 := by
      rw [readUpTo_of_sending ht hn, strike_uncorrected, setEcc_of_eq hc,
        readCells_of_uncorrected (after := []) (take_upTo ..) hb hc]
    have hck : s.checkedReads p d (s.summaryOf r) (before ++ c :: after) =
        (some (c, (s.detect (.ue c) p (some d) (s.summaryOf r)).1), (s.detect (.ue c) p (some d) (s.summaryOf r)).2) := by
      rw [checkedReads_append_of_sound hb, State.checkedReads, hc]
    rw [exec_transmissionComplete ht, hck]
    exact congrArg Host.Outcome.next hrd.symm
  case corrected =>
    subst hu
    have hn : c ∉ before := fun hm => by
      have := hb c hm
      rw [hc] at this
      cases this
    have hrd : s.readUpTo p c .corrected =
        (s.detect (.ce c) p (some d) (s.summaryOf r)).2.setTransmitter p (.sending r d after) := by
      rw [readUpTo_of_sending ht hn, strike_corrected (by rw [hc]; decide), setEcc_of_eq hc, readCells_of_corrected hb hc]
    have hck : s.checkedReads p d (s.summaryOf r) (before ++ c :: after) =
        (s.detect (.ce c) p (some d) (s.summaryOf r)).2.checkedReads p d (s.summaryOf r) after := by
      rw [checkedReads_append_of_sound hb, State.checkedReads, hc]
    refine ⟨_, congrArg Host.Outcome.next hrd, ?_⟩
    have hm : ((s.detect (.ce c) p (some d) (s.summaryOf r)).2.setTransmitter p (.sending r d after)).summaryOf r =
        s.summaryOf r := detect_summaryOf ..
    rw [exec_transmissionComplete ht, hck, exec_transmissionComplete (r := r) (d := d) (unread := after) (by simp [setTransmitter_eq]), hm,
      checkedReads_setTransmitter, ended_setTransmitter]

/-! ## Cell reads (R93, R94) -/

theorem takeWhile_ne_of_append {front back : List CellNo} {c : CellNo} (h : c ∉ front) :
    (front ++ c :: back).takeWhile (· ≠ c) = front := by
  rw [List.takeWhile_append_of_pos fun k hk => by simpa using ne_of_mem_of_not_mem hk h]
  simp

/-- Settles O21: the read strikes its cell, and what was sound before it stays so. -/
theorem cellReads : Obligations.CellReads := by
  unfold Obligations.CellReads
  refine ⟨fun s p c r d before after h ht hr hb hn => ⟨fun hc => ?corrected, fun front back hf hcf => ?poisoned, fun hc => ?same⟩,
    fun s p c h => ?other⟩
  case corrected =>
    have hb' : ∀ k ∈ before, (s.setEcc c .corrected).eccOf k = .sound := sound_setEcc hb hn
    have hm : (s.setEcc c .corrected).summaryOf r = some h.header.summary := summaryOf_of_held hr
    refine congrArg Host.Outcome.next ?_
    rw [readUpTo_of_sending ht hn, strike_corrected hc, readCells_of_corrected hb' (setEcc_eccOf_same ..), hm]
  case poisoned =>
    have hb' : ∀ k ∈ before, (s.setEcc c .uncorrected).eccOf k = .sound := sound_setEcc hb hn
    have hm : (s.setEcc c .uncorrected).summaryOf r = some h.header.summary := summaryOf_of_held hr
    refine congrArg Host.Outcome.next ?_
    rw [readUpTo_of_sending ht hn, strike_uncorrected,
      readCells_of_uncorrected (after := []) (take_upTo ..) hb' (setEcc_eccOf_same ..), hm]
    have hrec : ((s.setEcc c .uncorrected).detect (.ue c) p (some d) (some h.header.summary)).2.record r = .held h :=
      (record_congr (by simp) r).trans hr
    have hbytes : ((s.setEcc c .uncorrected).detect (.ue c) p (some d) (some h.header.summary)).2.bytesBefore r c =
        (h.header.encode (h.length - 8) ++ readStored h.cells s.mem 8 (h.length - 8)).take (max 8 (128 * front.length)) := by
      simp only [State.bytesBefore, State.held?, hrec, HeldFrame.sentBytes, detect_mem, setEcc_mem]
      rw [hf, takeWhile_ne_of_append hcf]
    have hsum (o : LineFrame) : (((s.setEcc c .uncorrected).detect (.ue c) p (some d) (some h.header.summary)).2.setLineOut p o).summaryOf r =
        some h.header.summary := summaryOf_of_held hrec
    simp only [State.poisonedEnd, State.lostByCheck, hbytes, hsum]
    rfl
  case same =>
    refine congrArg Host.Outcome.next ?_
    rw [readUpTo_of_sending ht hn, readUpTo_of_sending ht hn, strike_corrected_of_uncorrected hc, strike_uncorrected,
      setEcc_of_eq hc]
  case other =>
    have hno (fault : CellFault) : s.readUpTo p c fault = s := by
      unfold State.readUpTo
      split
      · rfl
      · rename_i r d unread hs
        rw [if_neg (h r d unread hs)]
    exact ⟨congrArg Host.Outcome.next (hno _), congrArg Host.Outcome.next (hno _)⟩

end Sys2Proof.Machine
end

section
/-! SUPPORT. The family of the aborted transmission. -/

namespace Sys2Proof.Machine

open Sys2Proof

/-- What a report leaves in the exception unit depends on exceptions, time and claim. -/
theorem report_exc_congr {s t : State} (he : t.exc = s.exc) (ht : t.timebase = s.timebase)
    (hc : t.claim.isSome = s.claim.isSome) (q : Request) : (t.report q).exc = (s.report q).exc := by
  unfold State.report State.request
  rw [he]
  split
  · dsimp only
    split <;> simp [State.syncTimer, State.raise, ht, hc]
  · exact he

/-- The state at the requeue of an abort, as far as the requeue looks at it. -/
structure AtAbort (s c : State) (p : Port) : Prop where
  deques : c.deques = s.deques
  pool : SamePool s c
  timebase : c.timebase = s.timebase
  claim : c.claim = s.claim
  exc : c.exc = (s.report { code := .linkDown, port := some p }).exc

theorem AtAbort.deque {s c : State} {p : Port} (h : AtAbort s c p) (d : DequeNo) : c.deque d = s.deque d := by
  rw [State.deque, State.deque, h.deques]

/-- A further report of the abort comes after LINK_DOWN. -/
theorem AtAbort.report_exc {s c : State} {p : Port} (h : AtAbort s c p) (q : Request) :
    (c.report q).exc = ((s.report { code := .linkDown, port := some p }).report q).exc :=
  report_exc_congr h.exc (h.timebase.trans (by simp)) (by simp [h.claim]) q

theorem report_samePool (q : Request) (s : State) : SamePool s (s.report q) := ⟨by simp, by simp, by simp⟩

section
variable {s c : State} {p : Port} {r : RecordNo} {d : DequeNo} {h : HeldFrame}

/-- Without retain, or refused, the frame is lost with LINK_ABORT. -/
theorem requeue_of_lost (hr : c.record r = .held h)
    (hq : (c.deque d).config.retain ≠ some true ∨ ¬ ((c.deque d).state = .active ∨ (c.deque d).state = .paused) ∨
      (r ∉ (c.deque d).entries ∧ (c.deque d).config.limit.toNat ≤ (c.deque d).entries.length ∧
        (c.deque d).config.policy = .refuse)) :
    c.requeue p r d =
      c.report { code := .linkAbort, port := some p, deque := some d, summary := some h.header.summary } := by
  have hl : c.linkAbort p r d =
      c.report { code := .linkAbort, port := some p, deque := some d, summary := some h.header.summary } := by
    rw [State.linkAbort, summaryOf_of_held hr]
  by_cases ho : (c.deque d).state = .active ∨ (c.deque d).state = .paused
  · rcases hq with hq | hq | ⟨hm, hf, hp⟩
    · rw [State.requeue, if_neg hq, hl]
    · exact absurd ho hq
    · rw [State.requeue, arrive_of_full_refuse ho hm hf hp]
      simpa using hl
  · have hc := Deque.closed_of_not_open ho
    rw [State.requeue, arrive_of_closed hc]
    simpa using hl

theorem requeue_of_present (hq : (c.deque d).config.retain = some true)
    (ho : (c.deque d).state = .active ∨ (c.deque d).state = .paused) (hm : r ∈ (c.deque d).entries) :
    c.requeue p r d = c := by
  rw [State.requeue, if_pos hq, arrive_of_present ho hm]

/-- Under retain, below the limit: the frame is at the head, and the transmitter's reference has gone. -/
theorem requeue_of_room (hr : c.record r = .held h) (hc : 1 ≤ h.count) (hq : (c.deque d).config.retain = some true)
    (ho : (c.deque d).state = .active ∨ (c.deque d).state = .paused) (hm : r ∉ (c.deque d).entries)
    (hl : (c.deque d).entries.length < (c.deque d).config.limit.toNat) :
    ∃ w, (c.requeue p r d).release r =
      { (c.setDeque d { c.deque d with entries := r :: (c.deque d).entries }).setRecord r (.held h) with follow := w } := by
  obtain ⟨ha, w, hw⟩ := arrive_of_room_held .head hr ho hm hl
  refine ⟨w, ?_⟩
  have hreq : c.requeue p r d = (c.arrive d r .head).2 := by
    rw [State.requeue, if_pos hq]
    cases hx : c.arrive d r .head with
    | mk a t =>
      rw [hx] at ha
      cases ha
      rfl
  have hrec : (c.arrive d r .head).2.record r = .held { h with count := h.count + 1 } := by
    rw [hw]
    exact setRecord_record_same r _ _
  rw [hreq, release_of_shared hrec (Nat.lt_succ_of_le hc), hw]
  simp only [State.setRecord, Vector.set_set, place, Nat.add_sub_cancel]

/-- Under retain, into a full deque that sheds. -/
theorem requeue_of_shed {v : RecordNo} {g : HeldFrame} {rest : List RecordNo} (hr : c.record r = .held h) (hc : 1 ≤ h.count)
    (hq : (c.deque d).config.retain = some true) (ho : (c.deque d).state = .active ∨ (c.deque d).state = .paused)
    (hm : r ∉ (c.deque d).entries) (hf : (c.deque d).config.limit.toNat ≤ (c.deque d).entries.length)
    (hv : c.record v = .held g) (hne : r ≠ v)
    (hs : shedEntry (c.deque d).config.policy (c.deque d).entries = some (v, rest)) :
    (c.requeue p r d).release r =
      (((c.report { code := .shed, port := (c.deque d).config.binding.port?, deque := some d,
                    summary := some g.header.summary }).setDeque d { c.deque d with entries := r :: rest }).release v).setRecord
        r (.held h) := by
  have hreq : c.requeue p r d = c.shedInto d r .head v rest := by
    rw [State.requeue, if_pos hq, arrive_of_full_shed ho hm hf hs]
  have hdq (q : Request) : (c.report q).deque d = c.deque d := by simp [State.deque]
  have hrec (q : Request) (x : Deque) : (((c.report q).setDeque d x).release v).record r = .held h := by
    rw [release_record_of_ne hne]
    exact (report_record ..).trans hr
  rw [hreq, State.shedInto, summaryOf_of_held hv]
  dsimp only
  rw [hdq, addRef_of_held (hrec _ _),
    release_of_shared (setRecord_record_same ..) (show 1 < h.count + 1 from Nat.lt_succ_of_le hc), setRecord_setRecord]
  rfl

end

theorem shedEntry_of_oldest {p : Policy} {l rest : List RecordNo} {v : RecordNo}
    (h : (p = .shedOldest ∧ l = v :: rest) ∨ (p = .shedNewest ∧ l = rest ++ [v])) : shedEntry p l = some (v, rest) := by
  rcases h with ⟨rfl, rfl⟩ | ⟨rfl, rfl⟩
  · rfl
  · cases rest with
    | nil => rfl
    | cons a l =>
      have h1 : (a :: (l ++ [v])).getLast? = some v := List.getLast?_concat (l := a :: l)
      have h2 : (a :: (l ++ [v])).dropLast = a :: l := List.dropLast_concat (l₁ := a :: l)
      simp [shedEntry, h1, h2]

/-! ## The abort, and what follows it in the event (R95, R105) -/

theorem requeue_keeps (p : Port) (r : RecordNo) (d : DequeNo) (s : State) : PoolKeeps s (s.requeue p r d) := by
  have hk := arrive_keeps d r .head s
  have hl (t : State) : PoolKeeps t (t.linkAbort p r d) := (report_samePool ..).keeps
  unfold State.requeue
  split
  · split
    · rename_i h; rw [h] at hk; exact hk
    · rename_i h; rw [h] at hk; exact hk
    · rename_i h; rw [h] at hk; exact hk.trans (hl _)
    · rename_i h; rw [h] at hk; exact hk.trans (hl _)
  · exact hl s

theorem cutLine_samePool (p : Port) (r : RecordNo) (l : List CellNo) (s : State) : SamePool s (s.cutLine p r l) :=
  ⟨by simp, by simp, by simp⟩

theorem abort_of_sending {s : State} {p : Port} {r : RecordNo} {d : DequeNo} {unread : List CellNo}
    (h : (s.port p).transmitter = .sending r d unread) :
    s.abort p = (((s.cutLine p r unread).requeue p r d).release r).setTransmitter p .idle := by
  simp only [State.abort, h]

/-- The abort leaves the frames that are being received. -/
theorem abort_keeps (p : Port) (s : State) : PoolKeeps s (s.abort p) := by
  cases h : (s.port p).transmitter with
  | idle => simpa [State.abort, h] using PoolKeeps.refl s
  | sending r d unread =>
    have hst (t : State) : PoolKeeps t (t.setTransmitter p .idle) := SamePool.keeps ⟨rfl, rfl, rfl⟩
    rw [abort_of_sending h]
    exact (((cutLine_samePool p r unread s).keeps.trans (requeue_keeps ..)).trans (release_keeps ..)).trans (hst _)

/-- What the end of a reception does besides the port. -/
def CutsReception (s : State) (p : Port) (cut : State → State) : Prop :=
  ((∀ x, (s.port p).receiver ≠ .receiving x) ∧ cut = id) ∨
    ∃ x f, (s.port p).receiver = .receiving x ∧ s.record x.record = .receiving f ∧
      cut = fun u => (u.report { code := .truncated, port := some p }).freeFrame x.record f.cells

/-- The state after the abort in the event in which the link leaves UP. -/
def State.aborted (s : State) (p : Port) : State := (s.report { code := .linkDown, port := some p }).abort p

theorem aborted_port (s : State) (p : Port) :
    ∃ o, (s.aborted p).port p = { s.port p with transmitter := .idle, lineOut := o } := by
  obtain ⟨o, ho⟩ := abort_ports p (s.report { code := .linkDown, port := some p })
  refine ⟨o, ?_⟩
  rw [State.aborted, port_congr ho, setPort_port_same, report_port]

theorem leaveUp_of_cuts {s : State} {p : Port} {cut : State → State} (h : CutsReception s p cut) :
    s.leaveUp p = (cut (s.aborted p)).setPort p
      { (s.aborted p).port p with link := .down, receiver := .idle, lineWaits := [] } := by
  obtain ⟨o, ho⟩ := aborted_port s p
  have hl : s.leaveUp p = ((((s.aborted p).cutReception p).dropWaits p).setLink p .down) := rfl
  rw [hl, State.cutReception]
  rcases h with ⟨hn, rfl⟩ | ⟨x, f, hx, hf, rfl⟩
  · cases hr : (s.port p).receiver with
    | receiving x => exact absurd hr (hn x)
    | idle =>
      have hi : ((s.aborted p).port p).receiver = .idle := by rw [ho]; exact hr
      simp only [hi, dropWaits_eq, setLink_eq, setPort_port_same, setPort_setPort, id_eq]
    | discarding =>
      have hi : ((s.aborted p).port p).receiver = .discarding := by rw [ho]; exact hr
      simp only [hi, setReceiver_eq, dropWaits_eq, setLink_eq, setPort_port_same, setPort_setPort, id_eq]
  · have hi : ((s.aborted p).port p).receiver = .receiving x := by rw [ho]; exact hx
    have hg : (s.aborted p).record x.record = .receiving f :=
      ((abort_keeps p _).receiving ..).mpr (by rw [report_record]; exact hf)
    have hg' : ((s.aborted p).report { code := .truncated, port := some p }).record x.record = .receiving f := by
      rw [report_record]; exact hg
    simp only [hi, State.portReport, returnReceived_of hg', setReceiver_eq, dropWaits_eq, setLink_eq, setPort_port_same,
      setPort_setPort, freeFrame_port, report_port]

/-- A state that differs from `s` beside the frames: in its ports, debts and draws. -/
structure FramesAs (s u : State) : Prop where
  deques : u.deques = s.deques
  pool : SamePool s u
  timebase : u.timebase = s.timebase
  claim : u.claim = s.claim
  exc : u.exc = s.exc

/-- The last steps of the abort: they end a transmission whose requeue starts from a state as `AtAbort` says. -/
theorem aborted_eq {s u : State} {p : Port} {r : RecordNo} {d : DequeNo} {unread : List CellNo} (hu : FramesAs s u)
    (h : (u.port p).transmitter = .sending r d unread) :
    ∃ c, AtAbort s c p ∧ u.aborted p = ((c.requeue p r d).release r).setTransmitter p .idle := by
  refine ⟨(u.report { code := .linkDown, port := some p }).cutLine p r unread, ?_,
    abort_of_sending (by rw [report_port]; exact h)⟩
  exact {
    deques := by simp [hu.deques]
    pool := hu.pool.trans ((report_samePool _ u).trans (cutLine_samePool ..))
    timebase := by simp [hu.timebase]
    claim := by simp [hu.claim]
    exc := by simpa using report_exc_congr hu.exc hu.timebase (by rw [hu.claim]) _ }

theorem portOrder_of_fromHolder {s : State} {j : Job} (h : FromHolder s j) (c : Instr) (p : Port)
    (effect : Port → State → State) :
    portOrder [p.code] effect j (s.settle c) = (.result .ok [], effect p (s.settle c)) := by
  simp only [portOrder, holderOnly_of_fromHolder h, portOperand_code, accept]

/-- RETRAIN-PORT on an UP link, when it is due and comes from the holder. -/
theorem exec_retrainPort_of_up {s : State} {p : Port} {j : Job} {n : Nat} (hl : (s.port p).link = .up n)
    (hd : OrderDue s j ⟨0x33, [p.code]⟩ 0) (hj : FromHolder s j) :
    exec (.retrainPort [p.code]) s = .next ((((s.settle (.retrainPort [p.code])).leaveUp p).updPort p fun y =>
      { y with quietUntil := some (s.timebase + 2000) }).conclude j 0x33 .ok []) := by
  have hlink : ((s.settle (.retrainPort [p.code])).port p).link = .up n := hl
  refine congrArg Host.Outcome.next ((dealOrder_of_ok hd (portOrder_of_fromHolder hj _ p State.retrain)).trans ?_)
  change State.conclude j 0x33 .ok [] (State.retrain p (s.settle (.retrainPort [p.code]))) = _
  rw [State.retrain]
  simp only [hlink]
  rfl

/-- A port with link, receiver and waiting groups as they are after UP, written with what it holds besides. -/
theorem PortState.leftUp_eq {y : PortState} {b : Bool} {q : Option Stamp} (hs : y.signal = b) (hq : y.quietUntil = q) :
    { y with signal := b, link := .down, quietUntil := q, receiver := .idle, lineWaits := [] } =
      { y with link := .down, receiver := .idle, lineWaits := [] } := by
  subst hs hq
  rfl

/-- The events of an abort: what `after` says of the abort from every state with the frames of `s`, it says after each. -/
theorem aborts_of {s : State} {p : Port} {r : RecordNo} {d : DequeNo} {unread : List CellNo} {cut : State → State}
    (hup : (s.port p).link.isUp = true) (ht : (s.port p).transmitter = .sending r d unread) (hcut : CutsReception s p cut)
    {after : State → Prop}
    (h : ∀ u, FramesAs s u → (u.port p).transmitter = .sending r d unread → after (u.aborted p)) :
    let ends := fun (t : State) (signal : Bool) (quiet : Option Stamp) => (cut t).setPort p { t.port p with
      signal := signal, link := .down, quietUntil := quiet, receiver := .idle, lineWaits := [] }
    (∃ t, exec (.lossOfSignal p) s = .next (ends t false (s.port p).quietUntil) ∧ after t) ∧
      ((s.port p).link = .up 3 →
        ∃ t, exec (.lossOfAlignment p) s = .next (ends t (s.port p).signal (s.port p).quietUntil) ∧
          exec (.invalidCodeGroup p) s = .next (ends t (s.port p).signal (s.port p).quietUntil) ∧ after t) ∧
      (∀ j, OrderDue s j ⟨0x33, [p.code]⟩ 0 → FromHolder s j →
        ∃ t, exec (.retrainPort [p.code]) s =
          .next ((ends t (s.port p).signal (some (s.timebase + 2000))).conclude j 0x33 .ok []) ∧ after t) := by
  obtain ⟨n, hl⟩ : ∃ n, (s.port p).link = .up n := by
    cases hl : (s.port p).link with
    | up n => exact ⟨n, rfl⟩
    | _ => rw [hl] at hup; cases hup
  have hself : FramesAs s s := ⟨rfl, .refl s, rfl, rfl, rfl⟩
  dsimp only
  refine ⟨?signal, fun h3 => ?alignment, fun j hd hj => ?retrain⟩
  case signal =>
    obtain ⟨u, hu⟩ : ∃ u, u = s.setPort p { s.port p with signal := false } := ⟨_, rfl⟩
    have hport : u.port p = { s.port p with signal := false } := by rw [hu]; exact setPort_port_same ..
    have hcu : CutsReception u p cut := by
      rw [CutsReception, hport, hu]
      exact hcut
    obtain ⟨o, ho⟩ := aborted_port u p
    refine ⟨u.aborted p, ?_, h u (by rw [hu]; exact ⟨rfl, ⟨rfl, rfl, rfl⟩, rfl, rfl, rfl⟩) (by rw [hport]; exact ht)⟩
    rw [exec_lossOfSignal_of_up hl, ← hu, leaveUp_of_cuts hcu,
      PortState.leftUp_eq (y := (u.aborted p).port p) (b := false) (q := (s.port p).quietUntil) (by rw [ho, hport])
        (by rw [ho, hport])]
  case alignment =>
    obtain ⟨o, ho⟩ := aborted_port s p
    have hy := PortState.leftUp_eq (y := (s.aborted p).port p) (b := (s.port p).signal) (q := (s.port p).quietUntil)
      (by rw [ho]) (by rw [ho])
    refine ⟨s.aborted p, ?_, ?_, h s hself ht⟩
    · rw [exec_lossOfAlignment_of_up h3, leaveUp_of_cuts hcut, hy]
    · rw [exec_invalidCodeGroup_of_fourth h3, leaveUp_of_cuts hcut, hy]
  case retrain =>
    obtain ⟨u, hu⟩ : ∃ u, u = s.settle (.retrainPort [p.code]) := ⟨_, rfl⟩
    have hport : u.port p = s.port p := by rw [hu]; rfl
    have hcu : CutsReception u p cut := by
      rw [CutsReception, hport, hu]
      exact hcut
    obtain ⟨o, ho⟩ := aborted_port u p
    refine ⟨u.aborted p, ?_, h u (by rw [hu]; exact ⟨rfl, ⟨rfl, rfl, rfl⟩, rfl, rfl, rfl⟩) (by rw [hport]; exact ht)⟩
    have hsig : (s.port p).signal = ((u.aborted p).port p).signal := by rw [ho, hport]
    rw [exec_retrainPort_of_up hl hd hj, ← hu, leaveUp_of_cuts hcu, updPort_eq, setPort_port_same, setPort_setPort, hsig]

/-- Settles O22: the four things that become of the frame, under each of the three events. -/
theorem abortedTransmission : Obligations.AbortedTransmission := by
  unfold Obligations.AbortedTransmission
  intro s p r d unread h cut hup ht hr hc hcut
  have aborts {after : State → Prop} (ha : ∀ c, AtAbort s c p → after (((c.requeue p r d).release r).setTransmitter p .idle)) :=
    aborts_of (after := after) hup ht hcut fun u hu hut => by
      obtain ⟨c, hac, heq⟩ := aborted_eq hu hut
      rw [heq]
      exact ha c hac
  refine ⟨fun hq ho hm hf => aborts fun c hac => ?room, fun v rest g hq ho hm hf hv hs => aborts fun c hac => ?shed,
    fun hq ho hm => aborts fun c hac => ?present, fun hq => aborts fun c hac => ?lost⟩
  case room =>
    have hcr : c.record r = .held h := (hac.pool.record r).trans hr
    rw [← hac.deque d] at hq ho hm hf
    obtain ⟨w, hw⟩ := requeue_of_room (p := p) hcr hc hq ho hm (Nat.not_le.mp hf)
    rw [hw, ← hac.deque d]
    refine ⟨congrArg Deque.entries (setDeque_deque_same ..), setRecord_record_same r _ _, by simp [setTransmitter_eq],
      fun e he => (setDeque_deque_of_ne _ c he).trans (hac.deque e), hac.exc, hac.pool.freeCells, hac.pool.freeRecords⟩
  case shed =>
    have hcr : c.record r = .held h := (hac.pool.record r).trans hr
    have hcv : c.record v = .held g := (hac.pool.record v).trans hv
    have hne : r ≠ v := by
      rintro rfl
      rcases hs with ⟨-, hs⟩ | ⟨-, hs⟩ <;> simp [hs] at hm
    rw [← hac.deque d] at hq ho hm hf hs
    have hp (q : Request) (x : Deque) : SamePool (s.release v) (((c.report q).setDeque d x).release v) :=
      (hac.pool.trans ((report_samePool q c).trans (t := c.report q) (u := (c.report q).setDeque d x) ⟨rfl, rfl, rfl⟩)).release v
    rw [requeue_of_shed hcr hc hq ho hm hf hcv hne (shedEntry_of_oldest hs)]
    refine ⟨?_, setRecord_record_same r _ _, ?_, by simp [setTransmitter_eq], fun e he => ?_, (hp _ _).freeCells,
      (hp _ _).freeRecords, ?_⟩
    · simp [State.deque]
    · exact (setRecord_record_of_ne _ _ hne.symm).trans ((hp _ _).record v)
    · have hdq (q : Request) (x : Deque) : ((c.report q).setDeque d x).deque e = s.deque e :=
        (setDeque_deque_of_ne _ _ he).trans (by simp [State.deque, hac.deques])
      simpa [State.deque] using hdq { code := .shed } { c.deque d with entries := r :: rest }
    · rw [← hac.deque d]
      simpa using hac.report_exc _
  case present =>
    have hcr : c.record r = .held h := (hac.pool.record r).trans hr
    rw [← hac.deque d] at hq ho hm
    rw [requeue_of_present hq ho hm]
    have hp := hac.pool.release r
    exact ⟨by simp [hac.deques], hp.records, hp.freeCells, hp.freeRecords, by simp [setTransmitter_eq], by simp [hac.exc]⟩
  case lost =>
    have hcr : c.record r = .held h := (hac.pool.record r).trans hr
    rw [← hac.deque d] at hq
    rw [requeue_of_lost hcr hq]
    have hp := (hac.pool.trans (report_samePool { code := .linkAbort, port := some p, deque := some d, summary := some h.header.summary } c)).release r
    exact ⟨by simp [hac.deques], hp.records, hp.freeCells, hp.freeRecords, by simp [setTransmitter_eq],
      by simpa using hac.report_exc _⟩

end Sys2Proof.Machine
end

section
/-! SUPPORT. The families of the arrivals, the drains, the timers and the end of an order. -/

namespace Sys2Proof.Machine

open Sys2Proof

/-! ## Arrivals (R31 to R36, R39) -/

theorem shedEntry_eq_none {p : Policy} {l : List RecordNo} : shedEntry p l = none ↔ p = .refuse ∨ l = [] := by
  cases p <;> cases l <;> simp [shedEntry]

theorem shedEntry_oldest {p : Policy} {l rest : List RecordNo} {v : RecordNo} (h : shedEntry p l = some (v, rest))
    (hp : p = .shedOldest) : rest = l.tail := by
  subst hp
  cases l with
  | nil => cases h
  | cons a l => cases h; rfl

theorem shedEntry_newest {p : Policy} {l rest : List RecordNo} {v : RecordNo} (h : shedEntry p l = some (v, rest))
    (hp : p = .shedNewest) : rest = l.dropLast := by
  subst hp
  cases l with
  | nil => cases h
  | cons a l =>
    have h' : (a :: l).getLast?.map (fun v => (v, (a :: l).dropLast)) = some (v, rest) := h
    obtain ⟨w, -, hw⟩ := Option.map_eq_some_iff.mp h'
    cases hw
    rfl

/-- The five ways in which an arrival is judged. -/
inductive ArrivalCase (s : State) (d : DequeNo) (r : RecordNo) (e : Insertion) : Prop
  | closed (ho : ¬ ((s.deque d).state = .active ∨ (s.deque d).state = .paused)) (h : s.arrive d r e = (.dequeClosed, s))
  | present (ho : (s.deque d).state = .active ∨ (s.deque d).state = .paused) (hm : r ∈ (s.deque d).entries)
      (h : s.arrive d r e = (.alreadyPresent, s))
  | refused (ho : (s.deque d).state = .active ∨ (s.deque d).state = .paused) (hm : r ∉ (s.deque d).entries)
      (hf : (s.deque d).config.limit.toNat ≤ (s.deque d).entries.length)
      (hs : shedEntry (s.deque d).config.policy (s.deque d).entries = none) (h : s.arrive d r e = (.dequeFull, s))
  | room (ho : (s.deque d).state = .active ∨ (s.deque d).state = .paused) (hm : r ∉ (s.deque d).entries)
      (hf : ¬ (s.deque d).config.limit.toNat ≤ (s.deque d).entries.length)
      (h : s.arrive d r e = (.accepted,
        let t := (s.setDeque d { s.deque d with entries := place e r (s.deque d).entries }).addRef r
        if (s.deque d).entries = [] then t.offer d else t))
  | shed (ho : (s.deque d).state = .active ∨ (s.deque d).state = .paused) (hm : r ∉ (s.deque d).entries)
      (hf : (s.deque d).config.limit.toNat ≤ (s.deque d).entries.length) (v : RecordNo) (rest : List RecordNo)
      (hs : shedEntry (s.deque d).config.policy (s.deque d).entries = some (v, rest))
      (h : s.arrive d r e = (.accepted, s.shedInto d r e v rest))

theorem arrivalCase (s : State) (d : DequeNo) (r : RecordNo) (e : Insertion) : ArrivalCase s d r e := by
  by_cases ho : (s.deque d).state = .active ∨ (s.deque d).state = .paused
  · by_cases hm : r ∈ (s.deque d).entries
    · exact .present ho hm (arrive_of_present ho hm)
    · by_cases hf : (s.deque d).config.limit.toNat ≤ (s.deque d).entries.length
      · cases hs : shedEntry (s.deque d).config.policy (s.deque d).entries with
        | none =>
          exact .refused ho hm hf hs (by rcases ho with ho | ho <;> simp [State.arrive, ho, hm, Nat.not_lt.mpr hf, hs])
        | some x => exact .shed ho hm hf x.1 x.2 hs (arrive_of_full_shed ho hm hf hs)
      · exact .room ho hm hf (arrive_of_room ho hm (Nat.not_le.mp hf))
  · exact .closed ho (arrive_of_closed (Deque.closed_of_not_open ho))

theorem shedInto_deque_same (s : State) (d : DequeNo) (r : RecordNo) (e : Insertion) (v : RecordNo) (rest : List RecordNo) :
    (s.shedInto d r e v rest).deque d = { s.deque d with entries := place e r rest } := by
  simp [State.shedInto, State.deque]

theorem shedInto_deque_of_ne {d f : DequeNo} (hf : f ≠ d) (s : State) (r : RecordNo) (e : Insertion) (v : RecordNo)
    (rest : List RecordNo) : (s.shedInto d r e v rest).deque f = s.deque f := by
  have hv : d.val ≠ f.val := fun g => hf (Fin.ext g.symm)
  simp [State.shedInto, State.deque, hv]

/-- An addition below the limit, with its offer. -/
theorem room_deque {s : State} {d f : DequeNo} {x : Deque} {r : RecordNo} {p : Prop} [Decidable p] :
    (if p then ((s.setDeque d x).addRef r).offer d else (s.setDeque d x).addRef r).deque f = (s.setDeque d x).deque f := by
  split <;> simp [State.deque]

theorem offer_of_state {s : State} {d : DequeNo} :
    s.offer d = if (s.deque d).state = .active then
      match (s.deque d).config.binding with
      | .port p => s.raise (.takeAttempt p)
      | .mgmt => s.raise (.engineTake [])
      | .unbound => s
    else s := by
  unfold State.offer
  cases (s.deque d).state <;> cases (s.deque d).config.binding <;> simp

/-- Settles O23: the five cases of `arrivalCase`, one after the other. -/
theorem arrivalOutcomes : Obligations.ArrivalOutcomes := by
  unfold Obligations.ArrivalOutcomes
  intro s d r e
  dsimp only
  cases arrivalCase s d r e with
  | closed ho h => simp [h, ho]
  | present ho hm h => simp [h, ho, hm]
  | refused ho hm hf hs h => simp [h, ho, hm, hf, shedEntry_eq_none.mp hs]
  | room ho hm hf h =>
    rw [h]
    refine ⟨by simp [ho], by simp [hm], by simp [hf], fun hn => absurd rfl hn, fun _ f hne => ?_, fun _ _ => ?_,
      fun _ hf' => absurd hf' hf, fun _ hf' => absurd hf' hf, fun x hr => ⟨fun _ _ => ?_, fun _ _ _ _ hf' => absurd hf' hf⟩⟩
    · exact room_deque.trans (setDeque_deque_of_ne _ _ hne)
    · exact room_deque.trans (setDeque_deque_same ..)
    · have hr' : (s.setDeque d { s.deque d with entries := place e r (s.deque d).entries }).record r = .held x := hr
      dsimp only
      rw [addRef_of_held hr', offer_of_state]
      have hq : ((s.setDeque d { s.deque d with entries := place e r (s.deque d).entries }).setRecord r
          (.held { x with count := x.count + 1 })).deque d = { s.deque d with entries := place e r (s.deque d).entries } :=
        setDeque_deque_same ..
      rw [hq]
      by_cases he : (s.deque d).entries = []
      · by_cases ha : (s.deque d).state = .active
        · cases (s.deque d).config.binding <;> simp [he, ha]
        · simp [he, ha]
      · simp [he]
  | shed ho hm hf v rest hs h =>
    rw [h]
    have hnone : ¬ ((s.deque d).config.policy = .refuse ∨ (s.deque d).entries = []) := fun hn => by
      rw [shedEntry_eq_none.mpr hn] at hs
      cases hs
    refine ⟨by simp [ho], by simp [hm], by simp [hnone], fun hn => absurd rfl hn,
      fun _ f hne => shedInto_deque_of_ne hne .., fun _ hf' => absurd hf hf', fun _ _ hp => ?_, fun _ _ hp => ?_,
      fun x hr => ⟨fun _ hf' => absurd hf hf', fun w rest' g _ _ hg hw => ?_⟩⟩
    · rw [shedInto_deque_same, shedEntry_oldest hs hp]
    · rw [shedInto_deque_same, shedEntry_newest hs hp]
    · rw [shedEntry_of_oldest hw] at hs
      cases hs
      have hne : r ≠ v := by
        rintro rfl
        rcases hw with ⟨-, hw⟩ | ⟨-, hw⟩ <;> simp [hw] at hm
      have hdq (q : Request) : (s.report q).deque d = s.deque d := by simp [State.deque]
      have hrec (q : Request) (y : Deque) : (((s.report q).setDeque d y).release v).record r = .held x := by
        rw [release_record_of_ne hne]
        exact (report_record ..).trans hr
      rw [State.shedInto, summaryOf_of_held hg]
      dsimp only
      rw [hdq, addRef_of_held (hrec _ _)]
      rfl

/-! ## Drains (R45 to R47, R128) -/

/-- Settles O24: a removal with an entry behind it, and the removal that empties the deque. -/
theorem drainRemoval : Obligations.DrainRemoval := by
  unfold Obligations.DrainRemoval
  refine ⟨fun s d target n r r' rest hs he => ?_, fun s d target n r j o hs he hj ho => ?_⟩
  · have hs' : ((s.settle (.drainRemoval d)).deque d).state = .draining target n := hs
    have he' : ((s.settle (.drainRemoval d)).deque d).entries = r :: r' :: rest := he
    refine congrArg Host.Outcome.next ?_
    simp only [State.drainRemoval, hs', he']
    rfl
  · have hs' : ((s.settle (.drainRemoval d)).deque d).state = .draining target n := hs
    have he' : ((s.settle (.drainRemoval d)).deque d).entries = [r] := he
    refine congrArg Host.Outcome.next ?_
    simp only [State.drainRemoval, hs', he']
    have hwait (x : Deque) : ((((s.settle (.drainRemoval d)).setDeque d x).release r).offer d).engine = .drainWait j := by
      simpa using hj
    simp only [State.drainComplete, hwait, ho]
    rfl

/-! ## Timers (R136, R179) -/

theorem releaseStored_exc_set (k : Claim) (s : State) :
    State.syncTimer { s.releaseStored k with claim := none } =
      { s.releaseStored k with claim := none, exc := { s.exc with retry := none } } := by
  simp [State.syncTimer]

/-- Settles O28: the lease and the retry timer, at their stamps and at no other time. -/
theorem timersExpire : Obligations.TimersExpire := by
  unfold Obligations.TimersExpire
  refine ⟨fun s k hk he => ?_, fun s k hk he => exec_leaseExpiry_of_ne hk he, fun s hk => ?_, fun s => ⟨fun h => ?_, fun h => ?_⟩⟩
  · rw [exec_leaseExpiry_of_eq hk he, State.clearClaim, releaseStored_exc_set]
    rfl
  · simp only [exec, execLeaseExpiry, hk]
  · simp only [exec, execRetryTimerExpiry, h, if_true]
    rfl
  · simp only [exec, execRetryTimerExpiry, h, if_false]

/-! ## The end of an order (R125) -/

/-- Settles O29: the next order begins, or the reply is due. -/
theorem concludeOrder : Obligations.ConcludeOrder := by
  unfold Obligations.ConcludeOrder
  intro s j code status data
  refine ⟨fun o ho => ?_, fun ho => ?_⟩
  · simp only [State.conclude, State.advance, ho]
    rfl
  · simp only [State.conclude, State.advance, ho]
    rfl

end Sys2Proof.Machine
end

section
/-! SUPPORT. The families of the engine: the take, the retransmission, the reply. -/

namespace Sys2Proof.Machine

open Sys2Proof

/-! ## The take of an order frame (R123, R124) -/

theorem exec_engineTake (s : State) : exec (.engineTake []) s = .next (s.settle (.engineTake [])).engineTake := rfl

/-- The state in which the engine has taken the head of intake. -/
def State.orderTaken (s : State) (rest : List RecordNo) : State :=
  (s.settle (.engineTake [])).setDeque intake { s.deque intake with entries := rest }

/-- The take of a HELD frame that a port has received. -/
theorem exec_engineTake_of_head {s : State} {r : RecordNo} {rest : List RecordNo} {h : HeldFrame} {p : Port}
    (he : s.engine = .idle) (hq : (s.deque intake).entries = r :: rest) (hr : s.record r = .held h) (ho : h.origin = .port p) :
    exec (.engineTake []) s = .next
      (if (s.orderTaken rest).isRetransmission (newJob r h.header p) = true then
        (s.orderTaken rest).replay (newJob r h.header p)
      else (s.orderTaken rest).parse (newJob r h.header p) h) := by
  have he' : (s.settle (.engineTake [])).engine = .idle := he
  have hq' : ((s.settle (.engineTake [])).deque intake).entries = r :: rest := hq
  have hr' : (s.settle (.engineTake [])).held? r = some h := by
    rw [State.held?, show (s.settle (.engineTake [])).record r = .held h from hr]
  rw [exec_engineTake]
  simp only [State.engineTake, he', hq', hr', ho]
  rfl

/-- A frame that is no retransmission is parsed. -/
theorem exec_engineTake_of_new {s : State} {r : RecordNo} {rest : List RecordNo} {h : HeldFrame} {p : Port}
    (he : s.engine = .idle) (hq : (s.deque intake).entries = r :: rest) (hr : s.record r = .held h) (ho : h.origin = .port p)
    (hn : ∀ k, s.claim = some k → h.header.dest = 4095 ∨ k.holder ≠ h.header.src ∨ k.lastSeq ≠ some h.header.seq) :
    exec (.engineTake []) s = .next ((s.orderTaken rest).parse (newJob r h.header p) h) := by
  have hnot : ¬ (s.orderTaken rest).isRetransmission (newJob r h.header p) = true := by
    have hc : (s.orderTaken rest).claim = s.claim := rfl
    intro hd
    rw [State.isRetransmission, hc] at hd
    cases hk : s.claim with
    | none =>
      rw [hk] at hd
      cases hd
    | some k =>
      rw [hk] at hd
      obtain ⟨h1, h2, h3⟩ := of_decide_eq_true hd
      rcases hn k hk with h4 | h4 | h4
      · simp [newJob, roleOf, h4] at h1
      · exact h4 h2
      · exact h4 h3
  rw [exec_engineTake_of_head he hq hr ho, if_neg hnot]

theorem cellsOfPayload_subset (h : HeldFrame) (n : Nat) : ∀ c ∈ h.cellsOfPayload n, c ∈ h.cells := by
  intro c hc
  unfold HeldFrame.cellsOfPayload at hc
  split at hc
  · cases hc
  · exact List.mem_of_mem_take hc

theorem parseCells_subset (s : State) (h : HeldFrame) (payload : List Byte) : ∀ c ∈ s.parseCells h payload, c ∈ h.cells := by
  intro c hc
  cases hf : framePayload payload with
  | list os =>
    rw [State.parseCells, hf] at hc
    exact cellsOfPayload_subset h _ c hc
  | malformed w m n =>
    obtain ⟨k, -, -, hk⟩ := parseCells_of_malformed (s := s) (h := h) hf
    rw [hk] at hc
    exact cellsOfPayload_subset h _ c hc

/-- A good list is read to its end, and it has an order. -/
theorem parseCells_of_list {s : State} {h : HeldFrame} {o : Order} {os : List Order} {m : Memory}
    (hl : h.cells.length = cellsFor h.length)
    (hf : framePayload (readStored h.cells m 8 (h.length - 8)) = .list (o :: os)) :
    s.parseCells h (readStored h.cells m 8 (h.length - 8)) = h.cells := by
  have hn : h.length - 8 ≠ 0 := fun h0 => by
    rw [h0] at hf
    cases hf
  have hlen : 8 + (h.length - 8) = h.length := by omega
  rw [State.parseCells, hf]
  dsimp only
  rw [readStored_length, HeldFrame.cellsOfPayload, if_neg hn, hlen, ← hl, List.take_length]

theorem advance_of_first {j : Job} {o : Order} {os : List Order} (hp : j.position = 0) (t : State) :
    t.advance { j with orders := o :: os } =
      { t with engine := .executing { j with orders := o :: os, position := 1 } }.raise (orderCommand o) := by
  simp only [State.advance, hp, List.getElem?_cons_zero, Nat.zero_add]

section
variable {t : State} {j : Job} {h : HeldFrame}

theorem parse_of_list {u : State} {o : Order} {os : List Order}
    (hc : t.checkedReads j.copy.port intake (some j.summary) (t.parseCells h (readStored h.cells t.mem 8 (h.length - 8))) =
      (none, u)) (hf : framePayload (readStored h.cells t.mem 8 (h.length - 8)) = .list (o :: os)) (hp : j.position = 0) :
    t.parse j h = { u with engine := .executing { j with orders := o :: os, position := 1 } }.raise (orderCommand o) := by
  simp only [State.parse, hc, hf]
  exact advance_of_first hp u

theorem parse_of_malformed {u : State} {w : ParseEnd} {m n : Nat}
    (hc : t.checkedReads j.copy.port intake (some j.summary) (t.parseCells h (readStored h.cells t.mem 8 (h.length - 8))) =
      (none, u)) (hf : framePayload (readStored h.cells t.mem 8 (h.length - 8)) = .malformed w m n) :
    t.parse j h = (u.parseReport j .orderMalformed none none).replyWith j .malformed := by
  simp only [State.parse, hc, hf]

theorem parse_of_abandoned {u : State} {c : CellNo} {chain : Option Byte}
    (hc : t.checkedReads j.copy.port intake (some j.summary) (t.parseCells h (readStored h.cells t.mem 8 (h.length - 8))) =
      (some (c, chain), u)) :
    t.parse j h = (u.parseReport j .orderAbandoned (some c) chain).replyWith j .abandoned := by
  simp only [State.parse, hc]

end

/-- Settles O25: the reads of the parse find nothing, or their first error decides. -/
theorem engineTakeParses : Obligations.EngineTakeParses := by
  unfold Obligations.EngineTakeParses
  intro s r rest h p he hq hr ho hn
  have hx := exec_engineTake_of_new he hq hr ho hn
  dsimp only
  refine ⟨fun hs => ⟨fun o os hf => ?list, fun w m n hf => ?malformed⟩,
    fun before after c o os hcells hlen hf hb => ⟨fun hc ha => ?corrected, fun hc => ?uncorrected⟩⟩
  case list =>
    rw [hx, parse_of_list (t := s.orderTaken rest)
      (checkedReads_of_sound fun c hc => hs c (parseCells_subset _ _ _ c hc)) hf rfl]
    rfl
  case malformed =>
    rw [hx, parse_of_malformed (t := s.orderTaken rest)
      (checkedReads_of_sound fun c hc => hs c (parseCells_subset _ _ _ c hc)) hf]
    rfl
  case corrected =>
    have hc' : (s.orderTaken rest).eccOf c = .corrected := hc
    have hreads (m : Option Summary) : (s.orderTaken rest).checkedReads p intake m
        ((s.orderTaken rest).parseCells h (readStored h.cells (s.orderTaken rest).mem 8 (h.length - 8))) =
          (none, ((s.orderTaken rest).detect (.ce c) p (some intake) m).2) := by
      rw [parseCells_of_list (s := s.orderTaken rest) (m := (s.orderTaken rest).mem) hlen hf, hcells,
        checkedReads_append_of_sound (s := s.orderTaken rest) hb, State.checkedReads, hc']
      exact checkedReads_of_sound fun k hk => by
        have hk' : (s.orderTaken rest).eccOf k = .sound := ha k hk
        simpa [State.eccOf] using hk'
    rw [hx, parse_of_list (t := s.orderTaken rest) (hreads _) hf rfl]
    rfl
  case uncorrected =>
    have hc' : (s.orderTaken rest).eccOf c = .uncorrected := hc
    have hreads (m : Option Summary) : (s.orderTaken rest).checkedReads p intake m
        ((s.orderTaken rest).parseCells h (readStored h.cells (s.orderTaken rest).mem 8 (h.length - 8))) =
          (some (c, ((s.orderTaken rest).detect (.ue c) p (some intake) m).1),
            ((s.orderTaken rest).detect (.ue c) p (some intake) m).2) := by
      rw [parseCells_of_list (s := s.orderTaken rest) (m := (s.orderTaken rest).mem) hlen hf, hcells,
        checkedReads_append_of_sound (s := s.orderTaken rest) hb, State.checkedReads, hc']
    rw [hx, parse_of_abandoned (t := s.orderTaken rest) (hreads _)]
    rfl

end Sys2Proof.Machine
end

section
/-! SUPPORT. The families of the retransmission and of the reply. -/

namespace Sys2Proof.Machine

open Sys2Proof

/-! ## The release that ends the engine's work (R122) -/

/-- What a release leaves of a record depends on that record alone. -/
theorem release_record_congr {s t : State} {r : RecordNo} (h : t.record r = s.record r) :
    (t.release r).record r = (s.release r).record r := by
  unfold State.release
  rw [h]
  split
  · split <;> simp only [freeFrame_record, setRecord_record, if_pos]
  · exact h

theorem finish_record {j : Job} {r : RecordNo} (hj : j.orderFrame = some r) (t : State) (q : RecordNo) :
    (t.finish j).record q = (t.release r).record q := by
  unfold State.finish
  rw [hj]
  dsimp only
  split <;> rfl

theorem finish_deque (j : Job) (t : State) (d : DequeNo) : (t.finish j).deque d = t.deque d := by
  simp [State.deque]

/-! ## The retransmission (R138) -/

/-- The state in which the engine has taken a retransmission through port `p`. -/
def State.portMoved (s : State) (rest : List RecordNo) (k : Claim) (p : Port) : State :=
  { s.orderTaken rest with claim := some { k with port := p } }

theorem exec_engineTake_of_retransmission {s : State} {r : RecordNo} {rest : List RecordNo} {h : HeldFrame} {p : Port}
    {k : Claim} (he : s.engine = .idle) (hq : (s.deque intake).entries = r :: rest) (hr : s.record r = .held h)
    (ho : h.origin = .port p) (hd : h.header.dest ≠ 4095) (hk : s.claim = some k) (hs : k.holder = h.header.src)
    (hl : k.lastSeq = some h.header.seq) :
    exec (.engineTake []) s = .next
      (match k.replyMemory with
        | some q => ((s.portMoved rest k p).placeReply (newJob r h.header p) q).finish (newJob r h.header p)
        | none => (s.portMoved rest k p).replayLost (newJob r h.header p)) := by
  have hc : (s.orderTaken rest).claim = some k := hk
  have hre : (s.orderTaken rest).isRetransmission (newJob r h.header p) = true := by
    rw [State.isRetransmission, hc]
    exact decide_eq_true ⟨if_neg hd, hs, hl⟩
  rw [exec_engineTake_of_head he hq hr ho, if_pos hre, State.replay, hc]
  rfl

theorem control_ne_intake (p : Port) : controlDeque p ≠ intake := by cases p <;> decide

section
variable {s : State} {rest : List RecordNo} {k : Claim} {p : Port}

theorem portMoved_deque_of_ne {d : DequeNo} (h : d ≠ intake) : (s.portMoved rest k p).deque d = s.deque d :=
  setDeque_deque_of_ne (s := s.settle (.engineTake [])) _ h

theorem portMoved_control : (s.portMoved rest k p).deque (controlDeque p) = s.deque (controlDeque p) :=
  portMoved_deque_of_ne (control_ne_intake p)

theorem portMoved_intake : ((s.portMoved rest k p).deque intake).entries = rest :=
  congrArg Deque.entries (setDeque_deque_same (s := s.settle (.engineTake [])) intake _)

theorem portMoved_exc (hk : s.claim = some k) (q : Request) :
    ((s.portMoved rest k p).report q).exc = (s.report q).exc :=
  report_exc_congr (s := s) (t := s.portMoved rest k p) rfl rfl (by rw [hk]; rfl) q

end

/-- A state in which all is done for a retransmission but the release of the order frame `r`. -/
structure Replayed (s : State) (rest : List RecordNo) (k : Claim) (p : Port) (r : RecordNo) (u : State) : Prop where
  claim : u.claim = some { k with port := p }
  intake : (u.deque intake).entries = rest
  record : u.record r = s.record r
  ports : u.ports = s.ports

theorem Replayed.released {s u : State} {rest : List RecordNo} {k : Claim} {p : Port} {r : RecordNo}
    (h : Replayed s rest k p r u) : (u.release r).record r = (s.release r).record r :=
  release_record_congr h.record

theorem portMoved_replayed (s : State) (rest : List RecordNo) (k : Claim) (p : Port) (r : RecordNo) :
    Replayed s rest k p r (s.portMoved rest k p) := ⟨rfl, portMoved_intake, rfl, rfl⟩

/-! ## The placement of a reply (R130) -/

section
variable {u : State} {j : Job} {q : RecordNo} {g : HeldFrame} {x : Deque}

theorem placeReply_of_room (hx : u.deque (controlDeque j.copy.port) = x) (hg : u.record q = .held g)
    (ha : x.state = .active) (hm : q ∉ x.entries) (hl : x.entries.length < x.config.limit.toNat) :
    ∃ w, u.placeReply j q =
      { (u.setDeque (controlDeque j.copy.port) { x with entries := x.entries ++ [q] }).setRecord q
          (.held { g with count := g.count + 1 }) with follow := w } := by
  subst hx
  obtain ⟨h1, w, h2⟩ := arrive_of_room_held .tail hg (.inl ha) hm hl
  refine ⟨w, ?_⟩
  have hp : u.placeReply j q = (u.arrive (controlDeque j.copy.port) q .tail).2 := by
    unfold State.placeReply
    rw [← Prod.eta (u.arrive (controlDeque j.copy.port) q .tail), h1]
  rw [hp, h2]
  rfl

theorem placeReply_of_present (hx : u.deque (controlDeque j.copy.port) = x) (ha : x.state = .active)
    (hm : q ∈ x.entries) : u.placeReply j q = u := by
  subst hx
  unfold State.placeReply
  rw [arrive_of_present (.inl ha) hm]

theorem placeReply_of_full (hx : u.deque (controlDeque j.copy.port) = x) (ha : x.state = .active) (hm : q ∉ x.entries)
    (hl : x.config.limit.toNat ≤ x.entries.length) (hp : x.config.policy = .refuse) :
    u.placeReply j q = u.replyUndelivered j := by
  subst hx
  unfold State.placeReply
  rw [arrive_of_full_refuse (.inl ha) hm hl hp]

end

section
variable {s : State} {rest : List RecordNo} {k : Claim} {p : Port} {r : RecordNo}

theorem undelivered_replayed (s : State) (rest : List RecordNo) (k : Claim) (p : Port) (r : RecordNo) (j : Job) :
    Replayed s rest k p r ((s.portMoved rest k p).replyUndelivered j) := by
  have hd : (((s.portMoved rest k p).replyUndelivered j).deque intake) = (s.portMoved rest k p).deque intake := by
    simp [State.replyUndelivered, State.deque]
  refine ⟨?_, ?_, ?_, ?_⟩
  · simp [State.replyUndelivered, State.portMoved]
  · rw [hd]
    exact portMoved_intake
  · rw [State.replyUndelivered, report_record]
    rfl
  · rw [State.replyUndelivered, report_ports]
    rfl

end

/-- A placed reply, before the order frame goes. -/
theorem placed_replayed {s u : State} {rest : List RecordNo} {k : Claim} {p : Port} {r q : RecordNo} {x : Deque}
    {y : FrameRecord} {w : List Instr} (h : Replayed s rest k p r u) (hne : q ≠ r) :
    Replayed s rest k p r { (u.setDeque (controlDeque p) x).setRecord q y with follow := w } where
  claim := h.claim
  intake := (congrArg Deque.entries (setDeque_deque_of_ne x u (control_ne_intake p).symm)).trans h.intake
  record := (setRecord_record_of_ne y (u.setDeque (controlDeque p) x) hne.symm).trans h.record
  ports := h.ports

section
variable {s u : State} {rest : List RecordNo} {k : Claim} {p : Port} {r : RecordNo} {j : Job}

/-- What every retransmission comes to, once the order frame is released. -/
theorem Replayed.finish (h : Replayed s rest k p r u) (hj : j.orderFrame = some r) :
    (u.finish j).engine = .idle ∧ (u.finish j).claim = some { k with port := p } ∧
      ((u.finish j).deque Machine.intake).entries = rest ∧ (u.finish j).record r = (s.release r).record r ∧
      (u.finish j).ports = s.ports :=
  ⟨finish_engine j u, by rw [finish_claim, h.claim], by rw [finish_deque, h.intake],
    by rw [finish_record hj, h.released], by rw [finish_ports, h.ports]⟩

theorem finish_record_of_ne (hj : j.orderFrame = some r) {q : RecordNo} (hne : q ≠ r) :
    (u.finish j).record q = u.record q := by
  rw [finish_record hj, release_record_of_ne hne]

end

/-- A reference that is added and released again. -/
theorem release_after_addition (v : State) {n : RecordNo} {g : HeldFrame} {w : List Instr} (hg : 1 ≤ g.count) :
    State.release n { v.setRecord n (.held { g with count := g.count + 1 }) with follow := w } =
      { v.setRecord n (.held g) with follow := w } := by
  have hr : State.record { v.setRecord n (.held { g with count := g.count + 1 }) with follow := w } n =
      .held { g with count := g.count + 1 } := setRecord_record_same _ _ v
  rw [release_of_shared hr (Nat.lt_succ_of_le hg)]
  simp only [State.setRecord, Vector.set_set, Nat.add_sub_cancel]

/-- The reply that tells a lost one, as its build leaves it. -/
def lostFrame (c : CellNo) (h : Header) (stamp : Stamp) : HeldFrame :=
  ⟨[c], 8 + (replyPayload .replayLost []).length, .internal, h, stamp, 1⟩

/-- The state after the build of the reply that tells a lost one. -/
def State.lostBuilt (u : State) (n : RecordNo) (records : List RecordNo) (c : CellNo) (cells : List CellNo)
    (h : Header) : State :=
  { u.setRecord n (.held (lostFrame c h u.timebase)) with
    freeRecords := records
    freeCells := cells
    mem := writeStored [c] 0 (h.encode (replyPayload .replayLost []).length ++ replyPayload .replayLost []) u.mem
    ecc := freshCodes [c] u.ecc }

theorem lostBuilt_replayed {s u : State} {rest : List RecordNo} {k : Claim} {p : Port} {r n : RecordNo}
    (hu : Replayed s rest k p r u) (hne : n ≠ r) (records : List RecordNo) (c : CellNo) (cells : List CellNo)
    (h : Header) : Replayed s rest k p r (u.lostBuilt n records c cells h) where
  claim := hu.claim
  intake := hu.intake
  record := (setRecord_record_of_ne _ u hne.symm).trans hu.record
  ports := hu.ports

/-- The short reply is placed, and its builder lets go of it. -/
theorem replayLost_of_room {u : State} {j : Job} {n : RecordNo} {records : List RecordNo} {c : CellNo}
    {cells : List CellNo} {h : Header} {x : Deque}
    (hb : u.build (replyHeader j u.station) (replyPayload .replayLost []) = some (n, u.lostBuilt n records c cells h))
    (hx : u.deque (controlDeque j.copy.port) = x) (ha : x.state = .active) (hm : n ∉ x.entries)
    (hl : x.entries.length < x.config.limit.toNat) :
    ∃ w, u.replayLost j =
      State.finish j { ((u.lostBuilt n records c cells h).setDeque (controlDeque j.copy.port)
        { x with entries := x.entries ++ [n] }).setRecord n (.held (lostFrame c h u.timebase)) with follow := w } := by
  have hrec : (u.lostBuilt n records c cells h).record n = .held (lostFrame c h u.timebase) :=
    setRecord_record_same n _ u
  have hx' : (u.lostBuilt n records c cells h).deque (controlDeque j.copy.port) = x := hx
  obtain ⟨w, hw⟩ := placeReply_of_room hx' hrec ha hm hl
  refine ⟨w, ?_⟩
  unfold State.replayLost
  rw [hb]
  dsimp only
  rw [hw, release_after_addition _ (Nat.le_refl 1)]

/-- Settles O26: the reply kept is placed again, or a short reply is built, or neither reaches the port. -/
theorem retransmissionIsReplayed : Obligations.RetransmissionIsReplayed := by
  unfold Obligations.RetransmissionIsReplayed
  intro s r rest h p k he hq hr ho hd hk hs hl
  have hx := exec_engineTake_of_retransmission he hq hr ho hd hk hs hl
  have hcontrol : (s.portMoved rest k p).deque (controlDeque p) = s.deque (controlDeque p) := portMoved_control
  have hlost : Replayed s rest k p r ((s.portMoved rest k p).replyUndelivered (newJob r h.header p)) :=
    undelivered_replayed s rest k p r _
  dsimp only
  intro hact
  refine ⟨fun kept g hkept hne hg => ⟨fun hroom => ?placed, fun hfull hnot hpol => ?full⟩,
    fun hnone => ⟨fun n records c cells hn hc hne hroom hnot => ?built, fun hempty => ?refused⟩⟩
  case placed =>
    rw [hkept] at hx
    dsimp only at hx
    by_cases hin : kept ∈ (s.deque (controlDeque p)).entries
    · rw [placeReply_of_present hcontrol hact hin] at hx
      obtain ⟨h1, h2, h3, h4, h5⟩ := (portMoved_replayed s rest k p r).finish (j := newJob r h.header p) rfl
      refine ⟨_, hx, h1, h2, h3, ?_, ?_, h4, ?_, ?_, ?_, ?_, ?_, ?_, ?_, h5⟩
      · rw [if_pos hin, finish_deque, hcontrol]
      · rw [if_pos hin, finish_record_of_ne rfl hne]
        exact hg
      all_goals simp [State.portMoved, State.orderTaken]
    · have hroom' := hroom.resolve_right hin
      obtain ⟨w, hw⟩ := placeReply_of_room (j := newJob r h.header p) hcontrol hg hact hin hroom'
      rw [hw] at hx
      obtain ⟨h1, h2, h3, h4, h5⟩ :=
        (placed_replayed (portMoved_replayed s rest k p r) hne).finish (j := newJob r h.header p) rfl
      refine ⟨_, hx, h1, h2, h3, ?_, ?_, h4, ?_, ?_, ?_, ?_, ?_, ?_, ?_, h5⟩
      · rw [if_neg hin, finish_deque]
        exact congrArg Deque.entries (setDeque_deque_same _ _ _)
      · rw [if_neg hin, finish_record_of_ne rfl hne]
        exact setRecord_record_same _ _ _
      all_goals simp [State.portMoved, State.orderTaken]
  case full =>
    rw [hkept] at hx
    dsimp only at hx
    rw [placeReply_of_full hcontrol hact hnot (Nat.not_lt.mp hfull) hpol] at hx
    obtain ⟨h1, h2, h3, h4, h5⟩ := hlost.finish (j := newJob r h.header p) rfl
    refine ⟨_, hx, h1, h2, h3, ?_, ?_, h4, ?_, ?_, h5⟩
    · rw [finish_deque]
      exact (congrArg (fun v => v[(controlDeque p).val]) (report_deques _ _)).trans hcontrol
    · rw [finish_record_of_ne rfl hne]
      exact (report_record ..).trans hg
    · rw [finish_exc]
      exact portMoved_exc hk _
    · simp [State.replyUndelivered, State.portMoved, State.orderTaken]
  case built =>
    rw [hnone] at hx
    have hn' : (s.portMoved rest k p).freeRecords = n :: records := hn
    have hc' : (s.portMoved rest k p).freeCells = c :: cells := hc
    have hb := build_of_granted (h := replyHeader (newJob r h.header p) s.station) (payload := replyPayload .replayLost [])
      hn' (by rw [hc']; exact Nat.le_add_left 1 _)
    have htake : (s.portMoved rest k p).freeCells.take (cellsFor (8 + (replyPayload .replayLost []).length)) = [c] := by
      rw [hc']
      rfl
    rw [htake] at hb
    have hb' : (s.portMoved rest k p).build (replyHeader (newJob r h.header p) (s.portMoved rest k p).station)
        (replyPayload .replayLost []) = some (n, (s.portMoved rest k p).lostBuilt n records c cells
          (replyHeader (newJob r h.header p) s.station)) := hb.trans (by rw [hc']; rfl)
    obtain ⟨w, hw⟩ := replayLost_of_room (x := s.deque (controlDeque p)) hb' hcontrol hact hnot hroom
    rw [show exec (.engineTake []) s = _ from hx, hw]
    have hbuilt := lostBuilt_replayed (portMoved_replayed s rest k p r) hne records c cells
      (replyHeader (newJob r h.header p) s.station)
    obtain ⟨h1, h2, h3, h4, h5⟩ := (placed_replayed hbuilt hne).finish (j := newJob r h.header p) rfl
    refine ⟨_, rfl, h1, h2, h3, ?_, ?_, ?_, h4, ?_, h5⟩
    · rw [finish_deque]
      exact congrArg Deque.entries (setDeque_deque_same _ _ _)
    · rw [finish_record_of_ne rfl hne]
      exact setRecord_record_same _ _ _
    · rw [finish_mem]
      rfl
    · rw [finish_exc]
      rfl
  case refused =>
    rw [hnone] at hx
    have hb : (s.portMoved rest k p).build (replyHeader (newJob r h.header p) s.station) (replyPayload .replayLost []) =
        none := build_of_refused (hempty.imp id fun hc => by
          have : (s.portMoved rest k p).freeCells = [] := hc
          rw [this]
          decide)
    have hb' : (s.portMoved rest k p).replayLost (newJob r h.header p) =
        ((s.portMoved rest k p).replyUndelivered (newJob r h.header p)).finish (newJob r h.header p) := by
      unfold State.replayLost
      rw [show (s.portMoved rest k p).station = s.station from rfl, hb]
    rw [show exec (.engineTake []) s = _ from hx, hb']
    obtain ⟨h1, h2, h3, h4, h5⟩ := hlost.finish (j := newJob r h.header p) rfl
    refine ⟨_, rfl, h1, h2, h3, ?_, h4, ?_, ?_, h5⟩
    · rw [finish_deque]
      exact (congrArg (fun v => v[(controlDeque p).val]) (report_deques _ _)).trans hcontrol
    · rw [finish_exc]
      exact portMoved_exc hk _
    · simp [State.replyUndelivered, State.portMoved, State.orderTaken]

end Sys2Proof.Machine
end

section
/-! SUPPORT. The four events of a reply. -/

namespace Sys2Proof.Machine

open Sys2Proof

/-- An event of the reply is the step that the engine is at (R130). -/
theorem exec_replyBuild_of_step {s : State} {j : Job} {status : FrameStatus} {step : ReplyStep}
    (he : s.engine = .replying j status step) :
    exec .replyBuild s = .next ((s.settle .replyBuild).replyStep j status step) := by
  have he' : (s.settle .replyBuild).engine = .replying j status step := he
  change Host.Outcome.next (match (s.settle .replyBuild).engine with
    | .replying j status next => (s.settle .replyBuild).replyStep j status next
    | _ => s.settle .replyBuild) = _
  rw [he']

section
variable {u : State} {j : Job} {status : FrameStatus}

theorem buildStep_of_granted {r : RecordNo} {t : State}
    (hb : u.build (replyHeader j u.station) (replyPayload status j.results) = some (r, t)) :
    u.buildStep j status = t.replyNext j status (.memory (some r)) := by
  rw [State.buildStep, hb]

theorem buildStep_of_refused (hb : u.build (replyHeader j u.station) (replyPayload status j.results) = none) :
    u.buildStep j status = (u.replyUndelivered j).replyNext j status (.memory none) := by
  rw [State.buildStep, hb]

/-- The frame of the holder enters reply memory (R137). -/
theorem updateReplyMemory_of_holder {k : Claim} (new : Option RecordNo) (hr : j.role = .own) (hk : u.claim = some k)
    (hh : k.holder = j.copy.src) :
    u.updateReplyMemory j new = { (u.releaseStored k).addStored new with
      claim := some { k with lastSeq := some j.copy.seq, port := j.copy.port, replyMemory := new } } := by
  simp only [State.updateReplyMemory, hk, hr, if_pos hh]

/-- A broadcast frame, and the frame of another source, leave reply memory alone (R137). -/
theorem updateReplyMemory_of_other (new : Option RecordNo) (h : j.role = .broadcast ∨ u.holder? ≠ some j.copy.src) :
    u.updateReplyMemory j new = u := by
  unfold State.updateReplyMemory
  split
  · rename_i k hk hr
    rcases h with h | h
    · rw [hr] at h
      cases h
    · refine if_neg fun hh => h ?_
      rw [State.holder?, hk, ← hh]
      rfl
  · rfl

theorem placeReply_of_accepted {r : RecordNo} (h : (u.arrive (controlDeque j.copy.port) r .tail).1 = .accepted) :
    u.placeReply j r = (u.arrive (controlDeque j.copy.port) r .tail).2 := by
  unfold State.placeReply
  rw [← Prod.eta (u.arrive (controlDeque j.copy.port) r .tail), h]

/-- A full deque leaves all as it was. -/
theorem arrive_of_dequeFull {d : DequeNo} {r : RecordNo} {e : Insertion} (h : (u.arrive d r e).1 = .dequeFull) :
    (u.arrive d r e).2 = u := by
  cases arrivalCase u d r e with
  | closed _ hx => rw [hx]
  | present _ _ hx => rw [hx]
  | refused _ _ _ _ hx => rw [hx]
  | room _ _ _ hx =>
    rw [hx] at h
    cases h
  | shed _ _ _ _ _ _ hx =>
    rw [hx] at h
    cases h

theorem placeReply_of_dequeFull {r : RecordNo} (h : (u.arrive (controlDeque j.copy.port) r .tail).1 = .dequeFull) :
    u.placeReply j r = u.replyUndelivered j := by
  have hu := arrive_of_dequeFull h
  unfold State.placeReply
  rw [← Prod.eta (u.arrive (controlDeque j.copy.port) r .tail), h, hu]

theorem finish_of_releaseOrder (j : Job) (u : State) :
    u.finish j = if ((u.releaseOrder j).deque intake).entries = [] then { u.releaseOrder j with engine := .idle }
      else State.raise (.engineTake []) { u.releaseOrder j with engine := .idle } := rfl

theorem releaseOrder_deque (j : Job) (u : State) (d : DequeNo) : (u.releaseOrder j).deque d = u.deque d := by
  unfold State.releaseOrder
  split
  · simp [State.deque]
  · rfl

end

/-- Settles O27, step by step. -/
theorem replyBuild : Obligations.ReplyBuild := by
  unfold Obligations.ReplyBuild
  intro s j status step he
  have hx := exec_replyBuild_of_step he
  dsimp only
  refine ⟨fun h => ⟨fun r rest hr hc => ?granted, fun hno => ?refused⟩, fun new h => ⟨fun k ho hk hh => ?holder, fun hn => ?other⟩,
    fun r h => ⟨fun ha => ?accepted, fun hf => ?full⟩, fun new h => ?release⟩
  all_goals subst h
  case granted =>
    have hr' : (s.settle .replyBuild).freeRecords = r :: rest := hr
    rw [hx, State.replyStep, buildStep_of_granted (build_of_granted hr' hc)]
    rfl
  case refused =>
    rw [hx, State.replyStep, buildStep_of_refused (u := s.settle .replyBuild) (build_of_refused hno)]
    rfl
  case holder =>
    have hk' : (s.settle .replyBuild).claim = some k := hk
    rw [hx, State.replyStep, State.memoryStep.eq_def, updateReplyMemory_of_holder new ho hk' hh]
    cases new <;> rfl
  case other =>
    rw [hx, State.replyStep, State.memoryStep.eq_def, updateReplyMemory_of_other (u := s.settle .replyBuild) new hn]
    cases new <;> rfl
  case accepted =>
    rw [hx, State.replyStep, State.placementStep, placeReply_of_accepted ha]
    rfl
  case full =>
    rw [hx, State.replyStep, State.placementStep, placeReply_of_dequeFull hf]
    rfl
  case release =>
    have hq (t : State) (ht : t.deque intake = s.deque intake) :
        ((t.releaseOrder j).deque intake).entries = (s.deque intake).entries := by rw [releaseOrder_deque, ht]
    rw [hx, State.replyStep]
    cases new with
    | none =>
      rw [State.releaseStep, finish_of_releaseOrder, hq (s.settle .replyBuild) rfl]
      rfl
    | some r =>
      rw [State.releaseStep, finish_of_releaseOrder, hq ((s.settle .replyBuild).release r) (by simp [State.deque])]
      rfl

end Sys2Proof.Machine
end

section
/-! SUPPORT. What the operand decoders refuse, in the words of checks 5 and 6 (R143). -/

namespace Sys2Proof.Machine

open Sys2Proof

/-! ## One byte -/

theorem portOperand_eq_none {b : Byte} : portOperand b = none ↔ b ∉ ([1, 2, 3] : List Byte) := by
  unfold portOperand
  split
  · simp_all
  · split
    · simp_all
    · split <;> simp_all

theorem dequeOperand_eq_none {b : Byte} : dequeOperand b = none ↔ 31 < b.toNat := by
  unfold dequeOperand
  split <;> simp <;> omega

theorem generalOperand_eq_none {b : Byte} : generalOperand b = none ↔ 27 < b.toNat := by
  unfold generalOperand
  split <;> simp <;> omega

/-- A byte at least `n` is none of the numbers below `n`. -/
theorem ne_of_toNat_lt {b : Byte} {n : Nat} (h : n < b.toNat) : ∀ m : Byte, m.toNat ≤ n → b ≠ m := by
  intro m hm hb
  rw [hb] at h
  omega

theorem insertionOperand_of_large {b : Byte} (h : 1 < b.toNat) : insertionOperand b = none := by
  rw [insertionOperand, if_neg (ne_of_toNat_lt h 0 (by decide)), if_neg (ne_of_toNat_lt h 1 (by decide))]

theorem hopRuleOperand_of_large {b : Byte} (h : 1 < b.toNat) : hopRuleOperand b = none := by
  rw [hopRuleOperand, if_neg (ne_of_toNat_lt h 0 (by decide)), if_neg (ne_of_toNat_lt h 1 (by decide))]

theorem boolOperand_of_large {b : Byte} (h : 1 < b.toNat) : boolOperand b = none := by
  rw [boolOperand, if_neg (ne_of_toNat_lt h 0 (by decide)), if_neg (ne_of_toNat_lt h 1 (by decide))]

theorem targetOperand_of_large {b : Byte} (h : 1 < b.toNat) : targetOperand b = none := by
  rw [targetOperand, if_neg (ne_of_toNat_lt h 0 (by decide)), if_neg (ne_of_toNat_lt h 1 (by decide))]

theorem policyOperand_of_large {b : Byte} (h : 2 < b.toNat) : policyOperand b = none := by
  rw [policyOperand, if_neg (ne_of_toNat_lt h 0 (by decide)), if_neg (ne_of_toNat_lt h 1 (by decide)),
    if_neg (ne_of_toNat_lt h 2 (by decide))]

theorem bindingOperand_of_large {b : Byte} (h : 3 < b.toNat) : bindingOperand b = none := by
  have hp : portOperand b = none := portOperand_eq_none.mpr fun hb => by
    simp only [List.mem_cons, List.not_mem_nil, or_false] at hb
    rcases hb with hb | hb | hb
    · exact ne_of_toNat_lt h 1 (by decide) hb
    · exact ne_of_toNat_lt h 2 (by decide) hb
    · exact ne_of_toNat_lt h 3 (by decide) hb
  rw [bindingOperand, if_neg (ne_of_toNat_lt h 0 (by decide)), hp]
  rfl

theorem priorityOperand_of_large {b : Byte} (h : 7 < b.toNat) : priorityOperand b = none :=
  dif_neg (by omega)

theorem levelOperand_of_large {b : Byte} (h : 3 < b.toNat) : levelOperand b = none :=
  dif_neg (by omega)

theorem classOperand_of_large {b : Byte} (h : 7 < b.toNat) : classOperand b = none :=
  if_neg (by omega)

/-! ## Two bytes -/

theorem entryOperand_eq_none {hi lo : Byte} : entryOperand hi lo = none ↔ 511 < (half hi lo).toNat := by
  unfold entryOperand
  split <;> simp <;> omega

theorem addressField_of_large {hi lo : Byte} (h : 4095 < (half hi lo).toNat) : addressField hi lo = none :=
  if_neg (by omega)

theorem stationOperand_of_large {hi lo : Byte} (h : 4094 < (half hi lo).toNat) : stationOperand hi lo = none := by
  unfold stationOperand
  by_cases h' : (half hi lo).toNat < 4096
  · have ha : addressField hi lo = some 4095 := by
      rw [addressField, if_pos h']
      refine congrArg some (BitVec.eq_of_toNat_eq ?_)
      simp
      omega
    rw [ha]
    exact if_pos rfl
  · rw [addressField, if_neg h']

/-! ## Dispositions and keys (R14, R194) -/

theorem allSome_eq_some {α : Type} {l : List (Option α)} {xs : List α} : allSome l = some xs ↔ l = xs.map some := by
  induction l generalizing xs with
  | nil => cases xs <;> simp [allSome]
  | cons x l ih =>
    cases x with
    | none => cases xs <;> simp [allSome]
    | some x =>
      simp only [allSome, Option.map_eq_some_iff]
      cases xs with
      | nil => simp
      | cons y ys =>
        simp only [List.cons.injEq, List.map_cons, Option.some.injEq]
        constructor
        · rintro ⟨zs, hz, rfl, rfl⟩
          exact ⟨rfl, ih.mp hz⟩
        · rintro ⟨rfl, hl⟩
          exact ⟨ys, ih.mpr hl, rfl, rfl⟩

/-- A target list that is accepted: its count, its unused bytes, and its bytes read one by one (R194). -/
theorem targetsOperand_eq_some {count : Byte} {bytes : List Byte} {l : List GeneralNo} :
    targetsOperand count bytes = some l ↔ count.toNat ≤ 3 ∧ (∀ b ∈ bytes.drop count.toNat, b = 0xFF) ∧
      (bytes.take count.toNat).map generalOperand = l.map some ∧ l.Nodup := by
  unfold targetsOperand
  split
  · rename_i h
    simp [Nat.not_le.mpr h]
  · rename_i h
    have h3 : count.toNat ≤ 3 := Nat.not_lt.mp h
    split
    · rename_i hall
      have hall' : ∀ b ∈ bytes.drop count.toNat, b = 0xFF := by simpa using hall
      split
      · rename_i xs hxs
        have hxs' := allSome_eq_some.mp hxs
        constructor
        · intro hl
          split at hl
          · cases hl
            exact ⟨h3, hall', hxs', ‹_›⟩
          · cases hl
        · rintro ⟨-, -, hm, hn⟩
          have : xs = l := List.map_injective_iff.mpr (Option.some_injective _) (hxs'.symm.trans hm)
          subst this
          exact if_pos hn
      · rename_i hnone
        constructor
        · intro hl
          cases hl
        · rintro ⟨-, -, hm, -⟩
          rw [allSome_eq_some.mpr hm] at hnone
          cases hnone
    · rename_i hall
      constructor
      · intro hl
        cases hl
      · rintro ⟨-, hd, -, -⟩
        exact absurd (by simpa using hd) hall

/-- An accepted target list names as many targets as its count says. -/
theorem targetsOperand_length {count t0 t1 t2 : Byte} {l : List GeneralNo}
    (h : targetsOperand count [t0, t1, t2] = some l) : l.length = count.toNat := by
  obtain ⟨h3, -, hm, -⟩ := targetsOperand_eq_some.mp h
  have hlen := congrArg List.length hm
  simp only [List.length_map, List.length_take, List.length_cons, List.length_nil] at hlen
  omega

/-- An accepted action and its target list (R14). -/
theorem actionOperand_eq_some {action count t0 t1 t2 : Byte} {a : Action}
    (h : actionOperand action count [t0, t1, t2] = some a) :
    targetsOperand count [t0, t1, t2] = some a.targets ∧ action = a.code ∧ (a.targets = [] ↔ action ≠ 0) := by
  unfold actionOperand at h
  split at h
  · cases h
  · rename_i ht
    split at h
    · rename_i ha
      cases h
      exact ⟨ht, ha, by simp [Action.targets, ha]⟩
    · split at h
      · rename_i ha
        cases h
        exact ⟨ht, ha, by simp [Action.targets, ha]⟩
      · cases h
  · rename_i t ts ht
    split at h
    · rename_i ha
      cases h
      exact ⟨ht, ha, by simp [Action.targets, ha]⟩
    · cases h

theorem dispositionOperand_eq_some {action count t0 t1 t2 insertion hop : Byte} {d : Disposition}
    (h : dispositionOperand action count t0 t1 t2 insertion hop = some d) :
    actionOperand action count [t0, t1, t2] = some d.action ∧ insertionOperand insertion = some d.insertion ∧
      hopRuleOperand hop = some d.hopRule := by
  unfold dispositionOperand at h
  split at h
  · rename_i ha hi hh
    cases h
    exact ⟨ha, hi, hh⟩
  · cases h

/-- A disposition that breaks R14 is not accepted. -/
theorem dispositionOperand_of_wrong {o : Order} {n : Nat} (hw : WrongDisposition o n) :
    dispositionOperand (operandByte o n) (operandByte o (n + 1)) (operandByte o (n + 2)) (operandByte o (n + 3))
      (operandByte o (n + 4)) (operandByte o (n + 5)) (operandByte o (n + 6)) = none := by
  rw [Option.eq_none_iff_forall_ne_some]
  intro d hd
  obtain ⟨ha, hi, hh⟩ := dispositionOperand_eq_some hd
  obtain ⟨ht, hcode, hempty⟩ := actionOperand_eq_some ha
  obtain ⟨h3, hrest, hm, hnodup⟩ := targetsOperand_eq_some.mp ht
  have hlen := targetsOperand_length ht
  have hnil : d.action.targets = [] ↔ (operandByte o (n + 1)).toNat = 0 := by rw [← hlen, List.length_eq_zero_iff]
  have hzero : operandByte o n = 0 ↔ (operandByte o n).toNat = 0 := by
    rw [← BitVec.toNat_inj]
    rfl
  have htarget (i : Nat) (h : i < 3) (hc : i < (operandByte o (n + 1)).toNat) :
      ∃ hl : i < d.action.targets.length, generalOperand (operandByte o (n + 2 + i)) = some (d.action.targets[i]) := by
    have hl : i < d.action.targets.length := hlen ▸ hc
    refine ⟨hl, ?_⟩
    have hg := congrArg (·[i]?) hm
    rw [List.getElem?_map, List.getElem?_take_of_lt hc, List.getElem?_map, List.getElem?_eq_getElem hl] at hg
    have hb : [operandByte o (n + 2), operandByte o (n + 3), operandByte o (n + 4)][i]? =
        some (operandByte o (n + 2 + i)) := by
      interval_cases i <;> rfl
    rw [hb] at hg
    simpa using hg
  rcases hw with h | h | h | h | ⟨h1, h2⟩ | ⟨h1, h2⟩ | ⟨i, h, hc, hlarge⟩ | ⟨i, k, hik, hk, hc, heq⟩ | ⟨i, h, hc, hff⟩
  · have : (operandByte o n).toNat ≤ 2 := by
      rw [hcode]
      cases d.action <;> exact Nat.le_of_ble_eq_true rfl
    omega
  · rw [insertionOperand_of_large h] at hi
    cases hi
  · rw [hopRuleOperand_of_large h] at hh
    cases hh
  · omega
  · exact hempty.mp (hnil.mpr h2) (hzero.mpr h1)
  · exact h2 (hnil.mp (hempty.mpr fun h0 => h1 (hzero.mp h0)))
  · obtain ⟨_, hg⟩ := htarget i h hc
    rw [generalOperand_eq_none.mpr hlarge] at hg
    cases hg
  · obtain ⟨hl1, hg1⟩ := htarget i (by omega) (by omega)
    obtain ⟨hl2, hg2⟩ := htarget k hk hc
    have he : operandByte o (n + 2 + i) = operandByte o (n + 2 + k) := heq
    rw [he, hg2] at hg1
    have := (List.Nodup.getElem_inj_iff hnodup).mp (Option.some.inj hg1)
    omega
  · refine hff (hrest _ ?_)
    refine List.mem_iff_getElem?.mpr ⟨i - (operandByte o (n + 1)).toNat, ?_⟩
    rw [List.getElem?_drop, Nat.add_sub_cancel' hc]
    interval_cases i <;> rfl

theorem keyOperand_of_wrong {d1 d0 classes ports : Byte}
    (h : 4095 < (half d1 d0).toNat ∨ classes = 0 ∨ ports = 0 ∨ 7 < ports.toNat) :
    keyOperand d1 d0 classes ports = none := by
  unfold keyOperand
  split
  · rfl
  · rename_i d hd
    refine if_pos (h.resolve_left fun h => ?_)
    rw [addressField_of_large h] at hd
    cases hd

theorem contentOperand_of_none {key : Option Key} {d : Option Disposition} (h : key = none ∨ d = none) :
    contentOperand key d = none := by
  unfold contentOperand
  split
  · rcases h with h | h <;> cases h
  · rfl

theorem configOperand_of_wrong {binding priority limit policy dwell1 dwell0 retain : Byte}
    (h : 3 < binding.toNat ∨ 7 < priority.toNat ∨ limit = 0 ∨ 2 < policy.toNat ∨ 1 < retain.toNat) :
    configOperand binding priority limit policy dwell1 dwell0 retain = none := by
  unfold configOperand
  split
  · rename_i hb hp hl hc hr
    rcases h with h | h | h | h | h
    · rw [bindingOperand_of_large h] at hb
      cases hb
    · rw [priorityOperand_of_large h] at hp
      cases hp
    · rw [limitOperand, if_pos h] at hl
      cases hl
    · rw [policyOperand_of_large h] at hc
      cases hc
    · rw [boolOperand_of_large h] at hr
      cases hr
  · rfl

theorem maskOperand_of_wrong {b : Byte} (h : b.getLsbD 0 = true ∨ b.getLsbD 6 = true ∨ b.getLsbD 7 = true) :
    maskOperand b = none := by
  refine if_pos ?_
  rcases h with h | h | h <;> simp [h]

end Sys2Proof.Machine
end

section
/-! SUPPORT. The families of the order list and of the order checks: one body to each order code. -/

namespace Sys2Proof.Machine

open Sys2Proof

/-! ## The body of an order -/

/-- The checks and the effect of an order (R142, R143). -/
def orderBody (o : Order) : Body :=
  match o.code.toNat with
  | 0x01 => identifyBody o.operands
  | 0x02 => claimBody o.operands
  | 0x03 => renewBody o.operands
  | 0x04 => releaseBody o.operands
  | 0x05 => setStationBody o.operands
  | 0x10 => readEntryBody o.operands
  | 0x11 => writeEntryBody o.operands
  | 0x12 => freeEntryBody o.operands
  | 0x13 => findEntryBody o.operands
  | 0x14 => readDefaultBody o.operands
  | 0x15 => writeDefaultBody o.operands
  | 0x20 => readDequeBody o.operands
  | 0x21 => setDequeBody o.operands
  | 0x22 => openDequeBody o.operands
  | 0x23 => pauseDequeBody o.operands
  | 0x24 => resumeDequeBody o.operands
  | 0x25 => drainDequeBody o.operands
  | 0x30 => readPortBody o.operands
  | 0x31 => holdPortBody o.operands
  | 0x32 => unholdPortBody o.operands
  | 0x33 => retrainPortBody o.operands
  | 0x40 => readExceptionsBody o.operands
  | 0x41 => ackExceptionsBody o.operands
  | 0x42 => setReportingBody o.operands
  | 0x50 => readChecksBody o.operands
  | 0x51 => clearChecksBody o.operands
  | 0x60 => readPoolBody o.operands
  | 0x70 => resetTrafficBody o.operands
  | 0x71 => resetFullBody o.operands
  | _ => unknownBody

/-- The codes of R142. -/
def knownCodes : List Byte :=
  [0x01, 0x02, 0x03, 0x04, 0x05, 0x10, 0x11, 0x12, 0x13, 0x14, 0x15, 0x20, 0x21, 0x22, 0x23, 0x24, 0x25, 0x30, 0x31, 0x32,
    0x33, 0x40, 0x41, 0x42, 0x50, 0x51, 0x60, 0x70, 0x71]

theorem exec_orderCommand_of_known {code : Byte} {ops : List Byte} {s : State} (h : code ∈ knownCodes) :
    exec (orderCommand ⟨code, ops⟩) s = .next (s.dealOrder ⟨code, ops⟩ (greatestData code) (orderBody ⟨code, ops⟩)) := by
  simp only [knownCodes, List.mem_cons, List.not_mem_nil, or_false] at h
  rcases h with h | h | h | h | h | h | h | h | h | h | h | h | h | h | h | h | h | h | h | h | h | h | h | h | h | h | h |
    h | h <;> (subst h; rfl)

theorem orderRow_eq_none {code : Byte} : orderRow code = none ↔ code ∉ knownCodes := by
  revert code
  decide +kernel

theorem mem_knownCodes_of_toNat {code : Byte} {n : Nat} (h : code.toNat = n)
    (hn : n ∈ knownCodes.map BitVec.toNat) : code ∈ knownCodes := by
  obtain ⟨c, hc, he⟩ := List.mem_map.mp hn
  rwa [BitVec.eq_of_toNat_eq (h.trans he.symm)]

theorem orderCommand_of_unknown {code : Byte} {ops : List Byte} (h : code ∉ knownCodes) :
    orderCommand ⟨code, ops⟩ = .unknownOrder code ops := by
  unfold orderCommand
  split
  case h_30 => rfl
  all_goals exact absurd (mem_knownCodes_of_toNat ‹_› (by decide)) h

theorem orderBody_of_unknown {code : Byte} {ops : List Byte} (h : code ∉ knownCodes) :
    orderBody ⟨code, ops⟩ = unknownBody := by
  unfold orderBody
  split
  case h_30 => rfl
  all_goals exact absurd (mem_knownCodes_of_toNat ‹_› (by decide)) h

theorem greatestData_of_unknown {code : Byte} (h : code ∉ knownCodes) : greatestData code = 0 := by
  rw [greatestData, orderRow_eq_none.mpr h]
  rfl

/-- Every order command deals with its order. -/
theorem exec_orderCommand (o : Order) (s : State) :
    exec (orderCommand o) s = .next (s.dealOrder o (greatestData o.code) (orderBody o)) := by
  obtain ⟨code, ops⟩ := o
  by_cases h : code ∈ knownCodes
  · exact exec_orderCommand_of_known h
  · have hx : exec (.unknownOrder code ops) s =
        .next (if orderCommand ⟨code, ops⟩ = .unknownOrder code ops then s.dealOrder ⟨code, ops⟩ 0 unknownBody else s) :=
      rfl
    rw [orderCommand_of_unknown h, hx, if_pos (orderCommand_of_unknown h), orderBody_of_unknown h,
      greatestData_of_unknown h]

/-! ## List end and room -/

/-- Settles O30: the list end decides before the room, and the room before the order's body. -/
theorem listEndAndRoom : Obligations.ListEndAndRoom := by
  unfold Obligations.ListEndAndRoom
  intro s j o he ho
  have hx : exec (orderCommand o) s = .next ((s.settle (orderCommand o)).deal j o.code (greatestData o.code) (orderBody o)) := by
    rw [exec_orderCommand, dealOrder_of_current he ho]
  rw [hx]
  refine ⟨fun hl => ?_, fun hl => ?_, fun hl hroom => ?_⟩
  · rw [State.deal, hl]
  · rcases hl with hl | hl <;> rw [State.deal, hl]
  · rw [State.deal, hl]
    exact congrArg Host.Outcome.next (if_pos hroom)

/-! ## The index and the values that an order names -/

theorem noSuchIndex_entry {code hi lo : Byte} {rest : List Byte} (hc : code ∈ ([0x10, 0x11, 0x12] : List Byte)) :
    NoSuchIndex ⟨code, hi :: lo :: rest⟩ ↔ entryOperand hi lo = none := by
  rw [entryOperand_eq_none]
  simp only [List.mem_cons, List.not_mem_nil, or_false] at hc
  rcases hc with rfl | rfl | rfl <;> simp [NoSuchIndex, operandNumber, operandByte]

theorem noSuchIndex_deque {code b : Byte} {rest : List Byte}
    (hc : code ∈ ([0x20, 0x21, 0x22, 0x23, 0x24, 0x25] : List Byte)) :
    NoSuchIndex ⟨code, b :: rest⟩ ↔ dequeOperand b = none := by
  rw [dequeOperand_eq_none]
  simp only [List.mem_cons, List.not_mem_nil, or_false] at hc
  rcases hc with rfl | rfl | rfl | rfl | rfl | rfl <;> simp [NoSuchIndex, operandByte]

theorem noSuchIndex_port {code b : Byte} {rest : List Byte}
    (hc : code ∈ ([0x14, 0x15, 0x30, 0x31, 0x32, 0x33] : List Byte)) :
    NoSuchIndex ⟨code, b :: rest⟩ ↔ portOperand b = none := by
  rw [portOperand_eq_none]
  simp only [List.mem_cons, List.not_mem_nil, or_false] at hc
  rcases hc with rfl | rfl | rfl | rfl | rfl | rfl <;> simp [NoSuchIndex, operandByte]

theorem noSuchIndex_find {d1 d0 cls port : Byte} :
    NoSuchIndex ⟨0x13, [d1, d0, cls, port]⟩ ↔ portOperand port = none := by
  rw [portOperand_eq_none]
  simp [NoSuchIndex, operandByte]

/-- The codes of orders that name no entry, deque or port. -/
def unindexedCodes : List Byte :=
  [0x01, 0x02, 0x03, 0x04, 0x05, 0x40, 0x41, 0x42, 0x50, 0x51, 0x60, 0x70, 0x71]

theorem not_noSuchIndex {code : Byte} {ops : List Byte} (hc : code ∈ unindexedCodes) : ¬ NoSuchIndex ⟨code, ops⟩ := by
  simp only [unindexedCodes, List.mem_cons, List.not_mem_nil, or_false] at hc
  rcases hc with rfl | rfl | rfl | rfl | rfl | rfl | rfl | rfl | rfl | rfl | rfl | rfl | rfl <;> simp [NoSuchIndex]

/-- The codes of orders that accept every value. -/
def openCodes : List Byte :=
  [0x01, 0x04, 0x10, 0x12, 0x14, 0x20, 0x22, 0x23, 0x24, 0x30, 0x31, 0x32, 0x33, 0x40, 0x41, 0x50, 0x51, 0x60, 0x70, 0x71]

theorem not_wrongValue {code : Byte} {ops : List Byte} (hc : code ∈ openCodes) : ¬ WrongValue ⟨code, ops⟩ := by
  simp only [openCodes, List.mem_cons, List.not_mem_nil, or_false] at hc
  rcases hc with rfl | rfl | rfl | rfl | rfl | rfl | rfl | rfl | rfl | rfl | rfl | rfl | rfl | rfl | rfl | rfl | rfl | rfl |
    rfl | rfl <;> simp [WrongValue]

/-! ## The rows of R142 -/

/-- The holder test of an order's group (R132). -/
def guardedBody (group : OrderGroup) (code : Byte) (inner : Body) : Body :=
  match group with
  | .read => inner
  | .claim => if code = 0x02 then notBroadcast inner else holderOnly inner
  | .write => holderOnly inner

/-- A body that checks index and values first. -/
structure ChecksOperands (o : Order) (inner : Body) : Prop where
  index : NoSuchIndex o → ∀ j s, inner j s = refuse .badIndex s
  value : ¬ NoSuchIndex o → WrongValue o → ∀ j s, inner j s = refuse .badOperand s

/-- The body of a code has the length, the group and the operand checks of its row. -/
structure BodyRow (code : Byte) (group : OrderGroup) (len : Nat) : Prop where
  short : ∀ ops : List Byte, ops.length ≠ len → orderBody ⟨code, ops⟩ = badLength
  checked : ∀ ops : List Byte, ops.length = len →
    ∃ inner, orderBody ⟨code, ops⟩ = guardedBody group code inner ∧ ChecksOperands ⟨code, ops⟩ inner

theorem checksOperands_of_open {code : Byte} {ops : List Byte} {inner : Body} (h1 : code ∈ unindexedCodes)
    (h2 : code ∈ openCodes) : ChecksOperands ⟨code, ops⟩ inner :=
  ⟨fun h => absurd h (not_noSuchIndex h1), fun _ h => absurd h (not_wrongValue h2)⟩

theorem checksOperands_of_indexed {code : Byte} {ops : List Byte} {inner : Body}
    (h1 : NoSuchIndex ⟨code, ops⟩ → ∀ j s, inner j s = refuse .badIndex s) (h2 : code ∈ openCodes) :
    ChecksOperands ⟨code, ops⟩ inner :=
  ⟨h1, fun _ h => absurd h (not_wrongValue h2)⟩

theorem checksOperands_of_unindexed {code : Byte} {ops : List Byte} {inner : Body} (h1 : code ∈ unindexedCodes)
    (h2 : WrongValue ⟨code, ops⟩ → ∀ j s, inner j s = refuse .badOperand s) : ChecksOperands ⟨code, ops⟩ inner :=
  ⟨fun h => absurd h (not_noSuchIndex h1), fun _ => h2⟩

end Sys2Proof.Machine
end

section
/-! SUPPORT. The rows of the order table, and the family of the order checks. -/

namespace Sys2Proof.Machine

open Sys2Proof

/-! ## Orders without operands and with one -/

theorem row_of_nil {code : Byte} {group : OrderGroup} {inner : Body}
    (h0 : orderBody ⟨code, []⟩ = guardedBody group code inner) (h1 : ∀ a l, orderBody ⟨code, a :: l⟩ = badLength)
    (hu : code ∈ unindexedCodes) (ho : code ∈ openCodes) : BodyRow code group 0 where
  short ops h := by
    cases ops with
    | nil => exact absurd rfl h
    | cons a l => exact h1 a l
  checked ops h := by
    obtain rfl := List.length_eq_zero_iff.mp h
    exact ⟨inner, h0, checksOperands_of_open hu ho⟩

theorem row_of_one {code : Byte} {group : OrderGroup} {inner : Byte → Body} (h0 : orderBody ⟨code, []⟩ = badLength)
    (h1 : ∀ a, orderBody ⟨code, [a]⟩ = guardedBody group code (inner a))
    (h2 : ∀ a b l, orderBody ⟨code, a :: b :: l⟩ = badLength) (hc : ∀ a, ChecksOperands ⟨code, [a]⟩ (inner a)) :
    BodyRow code group 1 where
  short ops h := by
    match ops with
    | [] => exact h0
    | [a] => exact absurd rfl h
    | a :: b :: l => exact h2 a b l
  checked ops h := by
    obtain ⟨a, rfl⟩ := List.length_eq_one_iff.mp h
    exact ⟨inner a, h1 a, hc a⟩

theorem identify_row : BodyRow 0x01 .read 0 := row_of_nil rfl (fun _ _ => rfl) (by decide) (by decide)

theorem release_row : BodyRow 0x04 .claim 0 := row_of_nil rfl (fun _ _ => rfl) (by decide) (by decide)

theorem readExceptions_row : BodyRow 0x40 .read 0 := row_of_nil rfl (fun _ _ => rfl) (by decide) (by decide)

theorem readChecks_row : BodyRow 0x50 .read 0 := row_of_nil rfl (fun _ _ => rfl) (by decide) (by decide)

theorem clearChecks_row : BodyRow 0x51 .write 0 := row_of_nil rfl (fun _ _ => rfl) (by decide) (by decide)

theorem readPool_row : BodyRow 0x60 .read 0 := row_of_nil rfl (fun _ _ => rfl) (by decide) (by decide)

theorem resetTraffic_row : BodyRow 0x70 .write 0 := row_of_nil rfl (fun _ _ => rfl) (by decide) (by decide)

theorem resetFull_row : BodyRow 0x71 .write 0 := row_of_nil rfl (fun _ _ => rfl) (by decide) (by decide)

theorem wrongValue_lease {code b : Byte} (hc : code ∈ ([0x02, 0x03] : List Byte)) : WrongValue ⟨code, [b]⟩ ↔ b = 0 := by
  simp only [List.mem_cons, List.not_mem_nil, or_false] at hc
  rcases hc with rfl | rfl <;> simp [WrongValue, operandByte]

theorem claim_row : BodyRow 0x02 .claim 1 :=
  row_of_one rfl (fun _ => rfl) (fun _ _ _ => rfl) fun _ =>
    checksOperands_of_unindexed (by decide) fun h _ _ => if_pos ((wrongValue_lease (by decide)).mp h)

theorem renew_row : BodyRow 0x03 .claim 1 :=
  row_of_one rfl (fun _ => rfl) (fun _ _ _ => rfl) fun _ =>
    checksOperands_of_unindexed (by decide) fun h _ _ => if_pos ((wrongValue_lease (by decide)).mp h)

theorem ackExceptions_row : BodyRow 0x41 .write 1 :=
  row_of_one rfl (fun _ => rfl) (fun _ _ _ => rfl) fun _ => checksOperands_of_open (by decide) (by decide)

theorem readDefault_row : BodyRow 0x14 .read 1 :=
  row_of_one (inner := fun b => readDefaultBody [b]) rfl (fun _ => rfl) (fun _ _ _ => rfl) fun _ =>
    checksOperands_of_indexed (fun h _ _ => by rw [readDefaultBody, (noSuchIndex_port (by decide)).mp h]) (by decide)

theorem readPort_row : BodyRow 0x30 .read 1 :=
  row_of_one (inner := fun b => readPortBody [b]) rfl (fun _ => rfl) (fun _ _ _ => rfl) fun _ =>
    checksOperands_of_indexed (fun h _ _ => by rw [readPortBody, (noSuchIndex_port (by decide)).mp h]) (by decide)

theorem holdPort_row : BodyRow 0x31 .write 1 :=
  row_of_one rfl (fun _ => rfl) (fun _ _ _ => rfl) fun _ => checksOperands_of_indexed (fun h _ _ => by rw [(noSuchIndex_port (by decide)).mp h]) (by decide)

theorem unholdPort_row : BodyRow 0x32 .write 1 :=
  row_of_one rfl (fun _ => rfl) (fun _ _ _ => rfl) fun _ => checksOperands_of_indexed (fun h _ _ => by rw [(noSuchIndex_port (by decide)).mp h]) (by decide)

theorem retrainPort_row : BodyRow 0x33 .write 1 :=
  row_of_one rfl (fun _ => rfl) (fun _ _ _ => rfl) fun _ => checksOperands_of_indexed (fun h _ _ => by rw [(noSuchIndex_port (by decide)).mp h]) (by decide)

theorem readDeque_row : BodyRow 0x20 .read 1 :=
  row_of_one (inner := fun b => readDequeBody [b]) rfl (fun _ => rfl) (fun _ _ _ => rfl) fun _ =>
    checksOperands_of_indexed (fun h _ _ => by rw [readDequeBody, (noSuchIndex_deque (by decide)).mp h]) (by decide)

theorem openDeque_row : BodyRow 0x22 .write 1 :=
  row_of_one rfl (fun _ => rfl) (fun _ _ _ => rfl) fun _ => checksOperands_of_indexed (fun h _ _ => by rw [(noSuchIndex_deque (by decide)).mp h]) (by decide)

theorem pauseDeque_row : BodyRow 0x23 .write 1 :=
  row_of_one rfl (fun _ => rfl) (fun _ _ _ => rfl) fun _ => checksOperands_of_indexed (fun h _ _ => by rw [(noSuchIndex_deque (by decide)).mp h]) (by decide)

theorem resumeDeque_row : BodyRow 0x24 .write 1 :=
  row_of_one rfl (fun _ => rfl) (fun _ _ _ => rfl) fun _ => checksOperands_of_indexed (fun h _ _ => by rw [(noSuchIndex_deque (by decide)).mp h]) (by decide)

/-! ## Orders with more operands -/

theorem setStation_row : BodyRow 0x05 .write 2 where
  short ops h := by
    change setStationBody ops = badLength
    unfold setStationBody
    split
    · exact absurd rfl h
    · rfl
  checked ops h := by
    obtain ⟨hi, lo, rfl⟩ := List.length_eq_two.mp h
    refine ⟨_, rfl, checksOperands_of_unindexed (by decide) fun hw _ _ => ?_⟩
    have hl : 4094 < (half hi lo).toNat := by simpa [WrongValue, operandNumber, operandByte] using hw
    rw [stationOperand_of_large hl]

theorem readEntry_row : BodyRow 0x10 .read 2 where
  short ops h := by
    change readEntryBody ops = badLength
    unfold readEntryBody
    split
    · exact absurd rfl h
    · rfl
  checked ops h := by
    obtain ⟨hi, lo, rfl⟩ := List.length_eq_two.mp h
    refine ⟨readEntryBody [hi, lo], rfl, checksOperands_of_indexed (fun hn _ _ => ?_) (by decide)⟩
    rw [readEntryBody, (noSuchIndex_entry (by decide)).mp hn]

theorem freeEntry_row : BodyRow 0x12 .write 4 where
  short ops h := by
    change freeEntryBody ops = badLength
    unfold freeEntryBody
    split
    · exact absurd rfl h
    · rfl
  checked ops h := by
    match ops, h with
    | [i1, i0, v1, v0], _ =>
      refine ⟨_, rfl, checksOperands_of_indexed (fun hn _ _ => ?_) (by decide)⟩
      rw [(noSuchIndex_entry (by decide)).mp hn]

theorem writeEntry_row : BodyRow 0x11 .write 15 where
  short ops h := by
    change writeEntryBody ops = badLength
    unfold writeEntryBody
    split
    · exact absurd rfl h
    · rfl
  checked ops h := by
    match ops, h with
    | [i1, i0, v1, v0, d1, d0, classes, ports, action, count, t0, t1, t2, insertion, hop], _ =>
      refine ⟨_, rfl, ⟨fun hn _ _ => ?_, fun hn hw _ _ => ?_⟩⟩
      · rw [(noSuchIndex_entry (by decide)).mp hn]
      · obtain ⟨i, hi⟩ := Option.ne_none_iff_exists'.mp fun h => hn ((noSuchIndex_entry (by decide)).mpr h)
        have hc : contentOperand (keyOperand d1 d0 classes ports)
            (dispositionOperand action count t0 t1 t2 insertion hop) = none := by
          have hw' : 4095 < operandNumber ⟨0x11, [i1, i0, v1, v0, d1, d0, classes, ports, action, count, t0, t1, t2,
              insertion, hop]⟩ 4 ∨ classes = 0 ∨ ports = 0 ∨ 7 < ports.toNat ∨
              WrongDisposition ⟨0x11, [i1, i0, v1, v0, d1, d0, classes, ports, action, count, t0, t1, t2, insertion,
                hop]⟩ 8 := by
            simpa [WrongValue, operandByte] using hw
          rcases hw' with h | h | h | h | h
          · exact contentOperand_of_none (.inl (keyOperand_of_wrong (.inl h)))
          · exact contentOperand_of_none (.inl (keyOperand_of_wrong (.inr (.inl h))))
          · exact contentOperand_of_none (.inl (keyOperand_of_wrong (.inr (.inr (.inl h)))))
          · exact contentOperand_of_none (.inl (keyOperand_of_wrong (.inr (.inr (.inr h)))))
          · exact contentOperand_of_none (.inr (dispositionOperand_of_wrong h))
        rw [hi, hc]

theorem findEntry_row : BodyRow 0x13 .read 4 where
  short ops h := by
    change findEntryBody ops = badLength
    unfold findEntryBody
    split
    · exact absurd rfl h
    · rfl
  checked ops h := by
    match ops, h with
    | [d1, d0, cls, port], _ =>
      refine ⟨findEntryBody [d1, d0, cls, port], rfl, ⟨fun hn _ _ => ?_, fun hn hw _ _ => ?_⟩⟩
      · rw [findEntryBody, noSuchIndex_find.mp hn]
      · obtain ⟨p, hp⟩ := Option.ne_none_iff_exists'.mp fun h => hn (noSuchIndex_find.mpr h)
        have hw' : 4095 < (half d1 d0).toNat ∨ 7 < cls.toNat := by
          simpa [WrongValue, operandNumber, operandByte] using hw
        rw [findEntryBody, hp]
        rcases hw' with h | h
        · rw [addressField_of_large h]
        · rw [classOperand_of_large h]
          cases addressField d1 d0 <;> rfl

theorem writeDefault_row : BodyRow 0x15 .write 10 where
  short ops h := by
    change writeDefaultBody ops = badLength
    unfold writeDefaultBody
    split
    · exact absurd rfl h
    · rfl
  checked ops h := by
    match ops, h with
    | [port, v1, v0, action, count, t0, t1, t2, insertion, hop], _ =>
      refine ⟨_, rfl, ⟨fun hn _ _ => ?_, fun hn hw _ _ => ?_⟩⟩
      · rw [(noSuchIndex_port (by decide)).mp hn]
      · obtain ⟨p, hp⟩ := Option.ne_none_iff_exists'.mp fun h => hn ((noSuchIndex_port (by decide)).mpr h)
        have hw' : WrongDisposition ⟨0x15, [port, v1, v0, action, count, t0, t1, t2, insertion, hop]⟩ 3 := by
          simpa [WrongValue] using hw
        have hd : dispositionOperand action count t0 t1 t2 insertion hop = none := dispositionOperand_of_wrong hw'
        rw [hp, hd]

theorem setDeque_row : BodyRow 0x21 .write 8 where
  short ops h := by
    change setDequeBody ops = badLength
    unfold setDequeBody
    split
    · exact absurd rfl h
    · rfl
  checked ops h := by
    match ops, h with
    | [deque, binding, priority, limit, policy, dwell1, dwell0, retain], _ =>
      refine ⟨_, rfl, ⟨fun hn _ _ => ?_, fun hn hw _ _ => ?_⟩⟩
      · rw [(noSuchIndex_deque (by decide)).mp hn]
      · obtain ⟨d, hd⟩ := Option.ne_none_iff_exists'.mp fun h => hn ((noSuchIndex_deque (by decide)).mpr h)
        have hw' : 3 < binding.toNat ∨ 7 < priority.toNat ∨ limit = 0 ∨ 2 < policy.toNat ∨ 1 < retain.toNat := by
          simpa [WrongValue, operandByte] using hw
        rw [hd, configOperand_of_wrong hw']

theorem drainDeque_row : BodyRow 0x25 .write 2 where
  short ops h := by
    change drainDequeBody ops = badLength
    unfold drainDequeBody
    split
    · exact absurd rfl h
    · rfl
  checked ops h := by
    obtain ⟨deque, target, rfl⟩ := List.length_eq_two.mp h
    refine ⟨_, rfl, ⟨fun hn _ _ => ?_, fun hn hw _ _ => ?_⟩⟩
    · rw [(noSuchIndex_deque (by decide)).mp hn]
    · obtain ⟨d, hd⟩ := Option.ne_none_iff_exists'.mp fun h => hn ((noSuchIndex_deque (by decide)).mpr h)
      have hw' : 1 < target.toNat := by simpa [WrongValue, operandByte] using hw
      rw [hd, targetOperand_of_large hw']

theorem setReporting_row : BodyRow 0x42 .write 3 where
  short ops h := by
    change setReportingBody ops = badLength
    unfold setReportingBody
    split
    · exact absurd rfl h
    · rfl
  checked ops h := by
    obtain ⟨mask, level, notices, rfl⟩ := List.length_eq_three.mp h
    refine ⟨_, rfl, checksOperands_of_unindexed (by decide) fun hw _ _ => ?_⟩
    have hw' : (mask.getLsbD 0 = true ∨ mask.getLsbD 6 = true ∨ mask.getLsbD 7 = true) ∨ 3 < level.toNat ∨
        1 < notices.toNat := by
      simpa [WrongValue, operandByte, or_assoc] using hw
    rcases hw' with h | h | h
    · rw [maskOperand_of_wrong h]
    · rw [levelOperand_of_large h]
      cases maskOperand mask <;> rfl
    · rw [boolOperand_of_large h]
      cases maskOperand mask <;> cases levelOperand level <;> rfl

/-! ## The order checks (R143) -/

/-- Every row of the order table is that of its body. -/
theorem bodyRow {code : Byte} {group : OrderGroup} {len most : Nat} (h : orderRow code = some (group, len, most)) :
    BodyRow code group len := by
  have hk : code ∈ knownCodes := by
    by_contra hk
    rw [orderRow_eq_none.mpr hk] at h
    cases h
  simp only [knownCodes, List.mem_cons, List.not_mem_nil, or_false] at hk
  rcases hk with hk | hk | hk | hk | hk | hk | hk | hk | hk | hk | hk | hk | hk | hk | hk | hk | hk | hk | hk | hk | hk | hk |
    hk | hk | hk | hk | hk | hk | hk <;> (subst hk; cases h)
  · exact identify_row
  · exact claim_row
  · exact renew_row
  · exact release_row
  · exact setStation_row
  · exact readEntry_row
  · exact writeEntry_row
  · exact freeEntry_row
  · exact findEntry_row
  · exact readDefault_row
  · exact writeDefault_row
  · exact readDeque_row
  · exact setDeque_row
  · exact openDeque_row
  · exact pauseDeque_row
  · exact resumeDeque_row
  · exact drainDeque_row
  · exact readPort_row
  · exact holdPort_row
  · exact unholdPort_row
  · exact retrainPort_row
  · exact readExceptions_row
  · exact ackExceptions_row
  · exact setReporting_row
  · exact readChecks_row
  · exact clearChecks_row
  · exact readPool_row
  · exact resetTraffic_row
  · exact resetFull_row

/-- An order that its body refuses without an effect. -/
theorem exec_orderCommand_of_refused {s : State} {j : Job} {o : Order} {status : Status}
    (hd : OrderDue s j o (greatestData o.code)) (h1 : status ≠ .ok) (h2 : status ≠ .noRoom)
    (hb : orderBody o j (s.settle (orderCommand o)) = refuse status (s.settle (orderCommand o))) :
    exec (orderCommand o) s = .next ((s.settle (orderCommand o)).conclude
      { j with listEnd := if j.copy.stop then some .stop else none } o.code status []) := by
  rw [exec_orderCommand]
  exact congrArg Host.Outcome.next (dealOrder_of_refused hd h1 h2 hb)

section
variable {group : OrderGroup} {code : Byte} {inner : Body} {j : Job} {s : State}

/-- A broadcast frame may only read (check 3). -/
theorem guardedBody_of_broadcast (hg : group ≠ .read) (hj : j.role = .broadcast) :
    guardedBody group code inner j s = refuse .notPermitted s := by
  cases group with
  | read => exact absurd rfl hg
  | claim =>
    rw [guardedBody]
    split
    · exact notBroadcast_of_broadcast hj
    · exact notBroadcast_of_broadcast hj
  | write =>
    rw [guardedBody, holderOnly]
    exact notBroadcast_of_broadcast hj

/-- The write group, RENEW and RELEASE are the holder's (check 4). -/
theorem guardedBody_of_other (hg : group = .write ∨ group = .claim ∧ code ≠ 0x02) (hj : j.role = .own)
    (hh : s.holder? ≠ some j.copy.src) : guardedBody group code inner j s = refuse .notHolder s := by
  rcases hg with rfl | ⟨rfl, hc⟩
  · exact holderOnly_of_other hj hh
  · rw [guardedBody, if_neg hc]
    exact holderOnly_of_other hj hh

/-- A source that may give the order comes to its own checks. -/
theorem guardedBody_of_allowed (h : group = .read ∨ (code = 0x02 ∧ j.role = .own ∧ group = .claim) ∨ FromHolder s j) :
    guardedBody group code inner j s = inner j s := by
  rcases h with rfl | ⟨rfl, hj, rfl⟩ | ⟨hj, hh⟩
  · rfl
  · simp [guardedBody, notBroadcast, hj]
  · cases group with
    | read => rfl
    | claim =>
      rw [guardedBody]
      split
      · simp [notBroadcast, hj]
      · exact holderOnly_of_holder hj hh
    | write => exact holderOnly_of_holder hj hh

end

/-- RENEW and RELEASE are no part of the write group, and CLAIM none of the read group. -/
theorem group_of_code {code : Byte} {group : OrderGroup} {len most : Nat}
    (h : orderRow code = some (group, len, most)) :
    (code = 0x03 ∨ code = 0x04 → group = .claim ∧ code ≠ 0x02) ∧ (code = 0x02 → group = .claim) ∧
      (group = .write → code ≠ 0x02) := by
  refine ⟨fun hc => ?_, fun hc => ?_, fun hg hc => ?_⟩
  · rcases hc with rfl | rfl <;> (cases h; exact ⟨rfl, by decide⟩)
  · subst hc
    cases h
    rfl
  · subst hc
    cases h
    cases hg

/-- Settles O31: the row of the code decides, and the body's own checks of its operands. -/
theorem orderChecks : Obligations.OrderChecks := by
  unfold Obligations.OrderChecks
  intro s j o hd
  obtain ⟨code, ops⟩ := o
  refine ⟨fun hu => ?unknown, fun group len most hrow => ⟨fun hl => ?length, fun hl hg hb => ?broadcast,
    fun hl hg hj hh => ?holder, fun hl hg => ⟨fun hn => ?index, fun hn hw => ?value⟩⟩⟩
  case unknown =>
    refine exec_orderCommand_of_refused hd (by decide) (by decide) ?_
    rw [orderBody_of_unknown (orderRow_eq_none.mp hu)]
    rfl
  case length =>
    refine exec_orderCommand_of_refused hd (by decide) (by decide) ?_
    rw [(bodyRow hrow).short ops hl]
    rfl
  all_goals
    obtain ⟨inner, hinner, hindex, hvalue⟩ := (bodyRow hrow).checked ops hl
    refine exec_orderCommand_of_refused hd (by decide) (by decide) ?_
    rw [hinner]
  case broadcast => exact guardedBody_of_broadcast hg hb
  case holder =>
    exact guardedBody_of_other (hg.imp id (group_of_code hrow).1) hj hh
  case index =>
    rw [guardedBody_of_allowed (s := s.settle (orderCommand ⟨code, ops⟩))
      (hg.imp id (Or.imp (fun h => ⟨h.1, h.2, (group_of_code hrow).2.1 h.1⟩) id))]
    exact hindex hn j _
  case value =>
    rw [guardedBody_of_allowed (s := s.settle (orderCommand ⟨code, ops⟩))
      (hg.imp id (Or.imp (fun h => ⟨h.1, h.2, (group_of_code hrow).2.1 h.1⟩) id))]
    exact hvalue hn hw j _

end Sys2Proof.Machine
end

section
/-! SUPPORT. The families of the read orders and of the claim. -/

namespace Sys2Proof.Machine

open Sys2Proof

/-! ## The bytes of a record (11.3) -/

/-- Class and code number of an exception code. -/
def ExcCode.number : ExcCode → Nat × Nat
  | .runt => (1, 1) | .badCrc => (1, 2) | .badHeader => (1, 3) | .lengthMismatch => (1, 4)
  | .overlength => (1, 5) | .truncated => (1, 6) | .expiredHop => (2, 1) | .noRoute => (2, 2)
  | .misdirected => (2, 3) | .reflected => (2, 4) | .dequeFull => (2, 5) | .dequeClosed => (2, 6)
  | .shed => (2, 7) | .dwellExpired => (2, 8) | .linkAbort => (2, 9) | .lostByCheck => (2, 10)
  | .noRecord => (3, 1) | .noCell => (3, 2) | .noticeUndelivered => (3, 3) | .replyUndelivered => (3, 4)
  | .intakeFull => (4, 1) | .orderMalformed => (4, 2) | .orderAbandoned => (4, 3) | .claimTaken => (4, 4)
  | .claimExpired => (4, 5) | .linkUp => (5, 1) | .linkDown => (5, 2) | .cellCorrected => (6, 1)
  | .cellUncorrected => (6, 2) | .tableParity => (6, 3)

theorem classByte_eq (c : ExcCode) (m : RecordMark) :
    c.cls.code ++ (0#3 ++ BitVec.ofBool (m = .notified)) =
      BitVec.ofNat 8 (16 * c.number.1 + match m with | .pending => 0 | .notified => 1) := by
  cases m <;> (cases c <;> rfl)

theorem codeByte_eq (c : ExcCode) : c.code = BitVec.ofNat 8 c.number.2 := by
  cases c <;> rfl

theorem kindByte_eq (cls : BitVec 3) (k : Kind) : (cls ++ (0#3 ++ k.code) : Byte) =
    BitVec.ofNat 8 (32 * cls.toNat + match k with | .data => 0 | .order => 1 | .reply => 2 | .notice => 3) := by
  revert cls
  cases k <;> decide

theorem presenceByte_eq (chain summary : Bool) : (0#6 ++ (BitVec.ofBool chain ++ BitVec.ofBool summary) : Byte) =
    BitVec.ofNat 8 ((if summary then 1 else 0) + if chain then 2 else 0) := by
  cases chain <;> cases summary <;> rfl

theorem summaryBytes_eq (m : Option Summary) : summaryBytes m =
    match m with
    | some m => be16 (m.dest.setWidth 16) ++ be16 (m.src.setWidth 16) ++
        [BitVec.ofNat 8 (32 * m.cls.toNat + match m.kind with | .data => 0 | .order => 1 | .reply => 2 | .notice => 3)]
    | none => [0, 0, 0, 0, 0] := by
  cases m with
  | none => rfl
  | some m =>
    rw [summaryBytes, kindByte_eq]
    rfl

theorem record_bytes_eq (x : ExceptionRecord) : x.bytes =
    [x.seq, BitVec.ofNat 8 (16 * x.code.number.1 + match x.mark with | .pending => 0 | .notified => 1),
      BitVec.ofNat 8 x.code.number.2, match x.port with | none => 0 | some .E => 1 | some .W => 2 | some .B => 3] ++
    be32 x.stamp ++ [match x.deque with | some d => BitVec.ofNat 8 d.val | none => 0xFF] ++
    be16 (match x.entry with | some i => BitVec.ofNat 16 i.val | none => 0xFFFF) ++
    (match x.summary with
      | some m => be16 (m.dest.setWidth 16) ++ be16 (m.src.setWidth 16) ++
          [BitVec.ofNat 8 (32 * m.cls.toNat + match m.kind with | .data => 0 | .order => 1 | .reply => 2 | .notice => 3)]
      | none => [0, 0, 0, 0, 0]) ++
    be16 (match x.cell with | some c => BitVec.ofNat 16 c.val | none => 0xFFFF) ++
    [match x.chain with | some n => n | none => 0,
      BitVec.ofNat 8 ((if x.summary.isSome then 1 else 0) + if x.chain.isSome then 2 else 0)] := by
  have hport : (x.port.map Port.code).getD 0 =
      match x.port with | none => 0 | some .E => 1 | some .W => 2 | some .B => 3 := by
    cases x.port with
    | none => rfl
    | some p => cases p <;> rfl
  have hdeque : (x.deque.map fun d => BitVec.ofNat 8 d.val).getD 0xFF =
      match x.deque with | some d => BitVec.ofNat 8 d.val | none => 0xFF := by cases x.deque <;> rfl
  have hentry : (x.entry.map fun i => BitVec.ofNat 16 i.val).getD 0xFFFF =
      match x.entry with | some i => BitVec.ofNat 16 i.val | none => 0xFFFF := by cases x.entry <;> rfl
  have hcell : (x.cell.map fun c => BitVec.ofNat 16 c.val).getD 0xFFFF =
      match x.cell with | some c => BitVec.ofNat 16 c.val | none => 0xFFFF := by cases x.cell <;> rfl
  have hchain : x.chain.getD 0 = match x.chain with | some n => n | none => 0 := by cases x.chain <;> rfl
  rw [ExceptionRecord.bytes, classByte_eq, codeByte_eq, hport, hdeque, hentry, hcell, hchain, summaryBytes_eq,
    presenceByte_eq]

/-! ## The read orders -/

section
variable {s : State} {j : Job}

theorem exec_identify_of_due (hd : OrderDue s j ⟨0x01, []⟩ 12) :
    exec (.identify []) s = .next ((s.settle (.identify [])).conclude j 0x01 .ok
      ([0x04, 0x28, 1] ++ addressBytes s.station ++ s.claimBytes ++ be32 s.timebase)) :=
  congrArg Host.Outcome.next (dealOrder_of_ok hd rfl)

theorem exec_readDefault_of_due {p : Port} (hd : OrderDue s j ⟨0x14, [p.code]⟩ 10) :
    exec (.readDefault [p.code]) s = .next ((s.settle (.readDefault [p.code])).conclude j 0x14 .ok
      (p.code :: (be16 (s.defaults.get p).version ++ (s.defaults.get p).disposition.bytes))) :=
  congrArg Host.Outcome.next (dealOrder_of_ok hd (by
    rw [readDefaultBody, portOperand_code]
    rfl))

theorem exec_readDeque_of_due {d : DequeNo} (hd : OrderDue s j ⟨0x20, [BitVec.ofNat 8 d.val]⟩ 14) :
    exec (.readDeque [BitVec.ofNat 8 d.val]) s =
      .next ((s.settle (.readDeque [BitVec.ofNat 8 d.val])).conclude j 0x20 .ok (s.dequeBytes d)) :=
  congrArg Host.Outcome.next (dealOrder_of_ok hd (by
    rw [readDequeBody, dequeOperand_ofNat]
    rfl))

theorem exec_readPort_of_due {p : Port} (hd : OrderDue s j ⟨0x30, [p.code]⟩ 5) :
    exec (.readPort [p.code]) s = .next ((s.settle (.readPort [p.code])).conclude j 0x30 .ok (s.portBytes p)) :=
  congrArg Host.Outcome.next (dealOrder_of_ok hd (by
    rw [readPortBody, portOperand_code]
    rfl))

theorem exec_readExceptions_of_due (hd : OrderDue s j ⟨0x40, []⟩ 321) :
    exec (.readExceptions []) s = .next ((s.settle (.readExceptions [])).conclude j 0x40 .ok s.exc.bytes) :=
  congrArg Host.Outcome.next (dealOrder_of_ok hd rfl)

theorem exec_readPool_of_due (hd : OrderDue s j ⟨0x60, []⟩ 6) :
    exec (.readPool []) s = .next ((s.settle (.readPool [])).conclude j 0x60 .ok s.poolBytes) :=
  congrArg Host.Outcome.next (dealOrder_of_ok hd rfl)

/-- The 14 bytes of a deque, with the age of its head (R156). -/
theorem dequeBytes_of_age {d : DequeNo} {age : BitVec 32} (ha : s.headAge d = age) : s.dequeBytes d =
    [BitVec.ofNat 8 d.val,
      match (s.deque d).config.binding with
      | .unbound => 0 | .port .E => 1 | .port .W => 2 | .port .B => 3 | .mgmt => 4,
      match (s.deque d).config.priority with | some v => BitVec.ofNat 8 v.val | none => 0xFF,
      (s.deque d).config.limit,
      match (s.deque d).config.policy with | .refuse => 0 | .shedOldest => 1 | .shedNewest => 2] ++
    be16 (s.deque d).config.dwell ++
    [match (s.deque d).config.retain with | some true => 1 | some false => 0 | none => 0xFF,
      match (s.deque d).state with | .detached => 0 | .active => 1 | .paused => 2 | .draining _ _ => 3,
      BitVec.ofNat 8 (s.deque d).entries.length] ++ be32 age := by
  have hbinding : (s.deque d).config.binding.code = match (s.deque d).config.binding with
      | .unbound => 0 | .port .E => 1 | .port .W => 2 | .port .B => 3 | .mgmt => 4 := by
    cases (s.deque d).config.binding with
    | unbound => rfl
    | mgmt => rfl
    | port p => cases p <;> rfl
  have hpriority : ((s.deque d).config.priority.map (fun v => BitVec.ofNat 8 v.val)).getD 0xFF =
      match (s.deque d).config.priority with | some v => BitVec.ofNat 8 v.val | none => 0xFF := by
    cases (s.deque d).config.priority <;> rfl
  have hpolicy : (s.deque d).config.policy.code =
      match (s.deque d).config.policy with | .refuse => 0 | .shedOldest => 1 | .shedNewest => 2 := by
    cases (s.deque d).config.policy <;> rfl
  have hretain : ((s.deque d).config.retain.map boolByte).getD 0xFF =
      match (s.deque d).config.retain with | some true => 1 | some false => 0 | none => 0xFF := by
    cases (s.deque d).config.retain with
    | none => rfl
    | some b => cases b <;> rfl
  have hstate : (s.deque d).state.code =
      match (s.deque d).state with | .detached => 0 | .active => 1 | .paused => 2 | .draining _ _ => 3 := by
    cases (s.deque d).state <;> rfl
  unfold State.dequeBytes
  dsimp only
  rw [hbinding, hpriority, hpolicy, hretain, hstate, ha]

end

/-- Settles O32: each body read off as it stands, and the bytes of a record field by field. -/
theorem readOrders : Obligations.ReadOrders := by
  unfold Obligations.ReadOrders
  intro s j
  dsimp only
  refine ⟨fun hd => ?identify, fun p hd => exec_readDefault_of_due hd,
    fun d hd => ⟨fun hq => ?empty, fun r rest h hq hr => ?head⟩, fun p hd => ?port,
    fun hd => exec_readExceptions_of_due hd, fun x => record_bytes_eq x, fun hd => exec_readChecks_of_due hd,
    fun hd => exec_readPool_of_due hd⟩
  case identify =>
    refine (exec_identify_of_due hd).trans ?_
    rw [State.claimBytes]
    cases s.claim <;> rfl
  case empty =>
    have ha : s.headAge d = 0xFFFFFFFF := by rw [State.headAge, hq]
    have hx := exec_readDeque_of_due hd
    rw [dequeBytes_of_age ha] at hx
    exact hx
  case head =>
    have ha : s.headAge d = s.timebase - h.stamp := by simp only [State.headAge, hq, State.held?, hr]
    have hx := exec_readDeque_of_due hd
    rw [dequeBytes_of_age ha] at hx
    exact hx
  case port =>
    refine (exec_readPort_of_due hd).trans ?_
    unfold State.portBytes
    cases p <;> cases (s.port _).link <;> cases (s.port _).transmitter <;> cases (s.port _).receiver <;> rfl

end Sys2Proof.Machine
end

section
/-! SUPPORT. The families of CLAIM and RELEASE. -/

namespace Sys2Proof.Machine

open Sys2Proof

/-- CLAIM asks for a frame of its own only (check 3). -/
theorem notBroadcast_of_own {body : Body} {j : Job} {s : State} (h : j.role = .own) :
    notBroadcast body j s = body j s := by
  simp [notBroadcast, h]

section
variable {s : State} {j : Job} {lease : Byte} {k : Claim}

/-! ## CLAIM (R133) -/

theorem claimBody_of_zero (hj : j.role = .own) : claimBody [0] j s = (.result .badOperand [], s) := by
  rw [claimBody, notBroadcast_of_own hj, if_pos rfl]
  rfl

theorem claimBody_of_free (hj : j.role = .own) (hl : lease ≠ 0) (hk : s.claim = none) :
    claimBody [lease] j s = (.result .ok (addressBytes j.copy.src ++ [lease]), s.takeClaim j lease) := by
  rw [claimBody, notBroadcast_of_own hj, if_neg hl, hk]
  rfl

theorem claimBody_of_holder (hj : j.role = .own) (hl : lease ≠ 0) (hk : s.claim = some k)
    (hh : k.holder = j.copy.src) :
    claimBody [lease] j s = (.result .ok (addressBytes j.copy.src ++ [lease]), s.renewClaim k j lease) := by
  rw [claimBody, notBroadcast_of_own hj, if_neg hl, hk]
  exact if_pos hh

theorem claimBody_of_other (hj : j.role = .own) (hl : lease ≠ 0) (hk : s.claim = some k)
    (hh : k.holder ≠ j.copy.src) :
    claimBody [lease] j s =
      (.result .claimedByOther (addressBytes k.holder ++ [secondsLeft s.timebase k.expiry]), s) := by
  have hb : s.claimBytes = addressBytes k.holder ++ [secondsLeft s.timebase k.expiry] := by rw [State.claimBytes, hk]
  rw [claimBody, notBroadcast_of_own hj, if_neg hl, hk, ← hb]
  exact if_neg hh

/-! ## RELEASE (R135) -/

theorem releaseBody_of_holder (hj : FromHolder s j) (hk : s.claim = some k) :
    releaseBody [] j s = (.result .ok [], s.clearClaim k) := by
  rw [releaseBody, holderOnly_of_holder hj.1 hj.2, hk]
  rfl

theorem releaseBody_of_other (hj : j.role = .own) (hh : s.holder? ≠ some j.copy.src) :
    releaseBody [] j s = (.result .notHolder [], s) :=
  holderOnly_of_other hj hh

end

/-- Settles O33: one clause for each branch of CLAIM's own checks. -/
theorem claimOutcomes : Obligations.ClaimOutcomes := by
  unfold Obligations.ClaimOutcomes
  intro s j lease hd hj
  dsimp only
  refine ⟨fun hl hk => ?free, fun k hl hk hh => ?holder, fun k hl hk hh => ?other, fun hl => ?zero⟩
  case free => exact congrArg Host.Outcome.next (dealOrder_of_ok hd (claimBody_of_free hj hl hk))
  case holder => exact congrArg Host.Outcome.next (dealOrder_of_ok hd (claimBody_of_holder hj hl hk hh))
  case other =>
    exact congrArg Host.Outcome.next (dealOrder_of_refused hd (by decide) (by decide) (claimBody_of_other hj hl hk hh))
  case zero =>
    subst hl
    exact congrArg Host.Outcome.next (dealOrder_of_refused hd (by decide) (by decide) (claimBody_of_zero hj))

/-- Settles O35: the claim record cleared for the holder, the holder test for another. -/
theorem releaseClaim : Obligations.ReleaseClaim := by
  unfold Obligations.ReleaseClaim
  intro s j k hd hj hk
  have hholder : s.holder? = some k.holder := by rw [State.holder?, hk]; rfl
  dsimp only
  refine ⟨fun hh => ?holder, fun hh => ?other⟩
  case holder =>
    have hb := releaseBody_of_holder (s := s.settle (.release [])) ⟨hj, by rw [← hh]; exact hholder⟩ hk
    refine (congrArg Host.Outcome.next (dealOrder_of_ok hd hb)).trans ?_
    rw [State.clearClaim, releaseStored_exc_set]
    rfl
  case other =>
    exact congrArg Host.Outcome.next (dealOrder_of_refused hd (by decide) (by decide)
      (releaseBody_of_other hj fun h => hh (Option.some.inj (hholder.symm.trans h))))

end Sys2Proof.Machine
end

section
/-! SUPPORT. The families of the formats: headers, contents and order lists read back. -/

namespace Sys2Proof.Machine

open Sys2Proof

/-! ## Headers (11.1, R192) -/

/-- A field cut in two parts is their join. -/
theorem extract_append_extract {m n : Nat} (x : BitVec (m + n)) : x.extractLsb' n m ++ x.extractLsb' 0 n = x := by
  ext i hi
  rw [BitVec.getElem_append]
  split
  · rw [BitVec.getElem_extractLsb', Nat.zero_add, BitVec.getLsbD_eq_getElem]
  · rename_i h
    rw [BitVec.getElem_extractLsb', Nat.add_sub_cancel' (Nat.not_lt.mp h), BitVec.getLsbD_eq_getElem]

theorem tagByte_low (a : BitVec 4) : (0b1010#4 ++ a : Byte).extractLsb' 0 4 = a := by
  revert a
  decide

theorem tagByte_high (a : BitVec 4) : (0b1010#4 ++ a : Byte).extractLsb' 4 4 = 0b1010#4 := by
  revert a
  decide

theorem kindOf_code (k : Kind) : kindOf k.code = k := by cases k <;> rfl

theorem flagsByte_read (a : BitVec 4) (k : BitVec 2) (b : Bool) :
    let x : Byte := a ++ (k ++ (BitVec.ofBool b ++ 0#1))
    x.extractLsb' 4 4 = a ∧ x.extractLsb' 2 2 = k ∧ x.getLsbD 1 = b ∧ x.getLsbD 0 = false := by
  revert a k b
  decide

theorem hopByte_read (c : BitVec 3) (n : BitVec 4) :
    let x : Byte := c ++ (n ++ 0#1)
    x.extractLsb' 5 3 = c ∧ x.extractLsb' 1 4 = n ∧ x.getLsbD 0 = false := by
  revert c n
  decide

theorem lengthByte_read (a : BitVec 3) :
    (0#5 ++ a : Byte).extractLsb' 0 3 = a ∧ (0#5 ++ a : Byte).extractLsb' 3 5 = 0#5 := by
  revert a
  decide

theorem header_decode_encode (h : Header) (n : Nat) (payload : List Byte) :
    Header.decode (h.encode n ++ payload) = some h := by
  obtain ⟨h1, h2, h3, -⟩ := flagsByte_read (h.src.extractLsb' 0 4) h.kind.code h.stop
  obtain ⟨h4, h5, -⟩ := hopByte_read h.cls h.hop
  simp only [Header.encode, List.cons_append, Header.decode, tagByte_low, h1, h2, h3, h4, h5, kindOf_code]
  rw [extract_append_extract (m := 4) (n := 8), extract_append_extract (m := 8) (n := 4)]

theorem headerFormGood_encode (h : Header) (n : Nat) (payload : List Byte) :
    headerFormGood (h.encode n ++ payload) = true := by
  obtain ⟨-, -, -, h1⟩ := flagsByte_read (h.src.extractLsb' 0 4) h.kind.code h.stop
  obtain ⟨-, -, h2⟩ := hopByte_read h.cls h.hop
  simp only [Header.encode, List.cons_append, headerFormGood, tagByte_high, h1, h2, (lengthByte_read _).2]
  rfl

theorem payloadLengthField_encode (h : Header) {n : Nat} (payload : List Byte) (hn : n ≤ 1016) :
    payloadLengthField (h.encode n ++ payload) = n := by
  simp only [Header.encode, List.cons_append, payloadLengthField, (lengthByte_read _).1]
  rw [extract_append_extract (m := 3) (n := 8), BitVec.toNat_ofNat]
  omega

/-! ## Contents (11.4, R194) -/

theorem half_of_be16 (x : BitVec 16) : half (x.extractLsb' 8 8) (x.extractLsb' 0 8) = x :=
  extract_append_extract (m := 8) (n := 8) x

theorem portsByte_read (ports : BitVec 3) : (ports.setWidth 8).toNat < 8 ∧ (ports.setWidth 8).setWidth 3 = ports ∧
    (ports.setWidth 8 = (0 : Byte) ↔ ports = 0) := by
  revert ports
  decide

theorem key_bytes_read {k : Key} (hk : k.legal = true) :
    ∃ d1 d0, k.bytes = [d1, d0, k.classes, k.ports.setWidth 8] ∧
      keyOperand d1 d0 k.classes (k.ports.setWidth 8) = some k := by
  obtain ⟨hc, hp⟩ := of_decide_eq_true hk
  obtain ⟨h1, h2, h3⟩ := portsByte_read k.ports
  refine ⟨_, _, rfl, ?_⟩
  rw [keyOperand, addressField_of_half (half_of_be16 _)]
  dsimp only
  rw [if_neg, h2]
  rintro (h | h | h)
  · exact hc h
  · exact hp (h3.mp h)
  · omega

/-- A list of at most three targets as it is sent and read. -/
theorem targetBytes_read {ts : List GeneralNo} (hl : ts.length ≤ 3) (hn : ts.Nodup) :
    ∃ count t0 t1 t2, targetBytes ts = [count, t0, t1, t2] ∧ targetsOperand count [t0, t1, t2] = some ts := by
  match ts, hl with
  | [], _ => exact ⟨_, _, _, _, rfl, targetsOperand_eq_some.mpr ⟨by decide, by decide, rfl, hn⟩⟩
  | [a], _ => exact ⟨_, _, _, _, rfl, targetsOperand_eq_some.mpr ⟨Nat.le_of_ble_eq_true rfl, by simp, by simp, hn⟩⟩
  | [a, b], _ => exact ⟨_, _, _, _, rfl, targetsOperand_eq_some.mpr ⟨Nat.le_of_ble_eq_true rfl, by simp, by simp, hn⟩⟩
  | [a, b, c], _ => exact ⟨_, _, _, _, rfl, targetsOperand_eq_some.mpr ⟨Nat.le_of_ble_eq_true rfl, by simp, by simp, hn⟩⟩

theorem disposition_bytes_read {x : Disposition} (hx : x.action.legal = true) :
    ∃ count t0 t1 t2, x.bytes = [x.action.code, count, t0, t1, t2, x.insertion.code, x.hopRule.code] ∧
      dispositionOperand x.action.code count t0 t1 t2 x.insertion.code x.hopRule.code = some x := by
  have hl : x.action.targets.length ≤ 3 ∧ x.action.targets.Nodup := by
    cases ha : x.action with
    | forward ts =>
      rw [ha] at hx
      exact (of_decide_eq_true hx).2
    | discard => exact ⟨by decide, List.nodup_nil⟩
    | discardReport => exact ⟨by decide, List.nodup_nil⟩
  obtain ⟨count, t0, t1, t2, hb, ht⟩ := targetBytes_read hl.1 hl.2
  refine ⟨count, t0, t1, t2, by rw [Disposition.bytes, hb]; rfl, ?_⟩
  have haction : actionOperand x.action.code count [t0, t1, t2] = some x.action := by
    rw [actionOperand, ht]
    cases ha : x.action with
    | forward ts =>
      rw [ha] at hx
      cases ts with
      | nil => simp [Action.legal] at hx
      | cons t ts => rfl
    | discard => rfl
    | discardReport => rfl
  rw [dispositionOperand, haction, insertionOperand_code, hopRuleOperand_code]

/-- Settles O51: field by field, the target list by its length. -/
theorem formatsRoundTrip : Obligations.FormatsRoundTrip := by
  unfold Obligations.FormatsRoundTrip
  refine ⟨fun h n payload hn => ⟨headerFormGood_encode h n payload, header_decode_encode h n payload,
    payloadLengthField_encode h payload hn⟩, fun x hx => ?_⟩
  obtain ⟨hk, hd⟩ := (Bool.and_eq_true _ _).mp hx
  obtain ⟨d1, d0, hb, hkey⟩ := key_bytes_read hk
  obtain ⟨count, t0, t1, t2, hb', hdisp⟩ := disposition_bytes_read hd
  rw [hb, hb']
  exact ⟨hkey, hdisp⟩

/-! ## Order lists (R124, R193) -/

theorem frameOrders_bytes (os : List Order) (room at_ : Nat) (hl : os.length ≤ room)
    (ho : ∀ o ∈ os, o.operands.length ≤ 255) : frameOrders room at_ (os.flatMap Order.bytes) = .list os := by
  induction os generalizing room at_ with
  | nil => cases room <;> rfl
  | cons o os ih =>
    obtain ⟨n, rfl⟩ : ∃ n, room = n + 1 := ⟨room - 1, by simp at hl; omega⟩
    have hlen : (BitVec.ofNat 8 o.operands.length).toNat = o.operands.length := by
      rw [BitVec.toNat_ofNat]
      exact Nat.mod_eq_of_lt (Nat.lt_succ_of_le (ho o (by simp)))
    have hrest := ih n (at_ + 2 + o.operands.length) (by simpa using hl) fun x hx => ho x (by simp [hx])
    rw [List.flatMap_cons, Order.bytes, List.cons_append, List.cons_append, frameOrders, hlen,
      if_neg (by simp), List.drop_left, List.take_left, hrest]

/-- Settles O50: by induction on the list. -/
theorem orderListRoundTrip : Obligations.OrderListRoundTrip := by
  unfold Obligations.OrderListRoundTrip
  intro os hne hl ho
  have hf := frameOrders_bytes os 16 0 hl ho
  cases os with
  | nil => exact absurd rfl hne
  | cons o os => exact hf

end Sys2Proof.Machine
end

section
/-! SUPPORT. The families of the table orders. -/

namespace Sys2Proof.Machine

open Sys2Proof

/-! ## READ-ENTRY (R12, R152) -/

section
variable {u : State} {j : Job} {hi lo : Byte} {i : EntryNo}

theorem readEntryBody_of_index (hn : (half hi lo).toNat = i.val) :
    readEntryBody [hi, lo] j u =
      (.result .ok ((u.checkEntry i j.copy.port).entryBytes i), u.checkEntry i j.copy.port) := by
  rw [readEntryBody, entryOperand_of_toNat hn]
  rfl

theorem entryBytes_eq (hn : (half hi lo).toNat = i.val) {e : Entry} (he : u.entry i = e) :
    u.entryBytes i = [hi, lo] ++ [e.body.code] ++ be16 e.version ++ (e.body.stored?.map Stored.bytes).getD [] := by
  rw [State.entryBytes, he, indexBytes_of_toNat hn]
  rfl

theorem checkEntry_of_good (q : Port) (hb : ∀ b, (u.entry i).body.stored? ≠ some (.damaged b)) :
    u.checkEntry i q = u := by
  unfold State.checkEntry
  split
  · exact absurd ‹_› (hb _)
  · rfl

theorem checkEntry_of_damaged {b : Vector Byte 11} (q : Port) (hb : (u.entry i).body.stored? = some (.damaged b)) :
    u.checkEntry i q =
      ((u.setEntry i ⟨(u.entry i).version, .suspect (.damaged b)⟩).detect (.tp i) q none none).2 := by
  unfold State.checkEntry
  rw [hb]
  rfl

theorem detect_entry (x : Location) (p : Port) (d : Option DequeNo) (m : Option Summary) (s : State) (k : EntryNo) :
    (s.detect x p d m).2.entry k = s.entry k := by
  simp [State.entry]

/-- A content that passes its check, or none, is returned as it stands. -/
theorem readEntryBody_of_good (hn : (half hi lo).toNat = i.val)
    (hb : ∀ b, (u.entry i).body.stored? ≠ some (.damaged b)) :
    readEntryBody [hi, lo] j u = (.result .ok ([hi, lo] ++ [(u.entry i).body.code] ++ be16 (u.entry i).version ++
      ((u.entry i).body.stored?.map Stored.bytes).getD []), u) := by
  rw [readEntryBody_of_index hn, checkEntry_of_good _ hb, entryBytes_eq hn rfl]

/-- A content that fails its check makes the entry SUSPECT, and is returned as stored. -/
theorem readEntryBody_of_damaged {b : Vector Byte 11} (hn : (half hi lo).toNat = i.val)
    (hb : (u.entry i).body.stored? = some (.damaged b)) :
    readEntryBody [hi, lo] j u = (.result .ok ([hi, lo] ++ [2] ++ be16 (u.entry i).version ++ b.toList),
      ((u.setEntry i ⟨(u.entry i).version, .suspect (.damaged b)⟩).detect (.tp i) j.copy.port none none).2) := by
  have he : ((u.setEntry i ⟨(u.entry i).version, .suspect (.damaged b)⟩).detect (.tp i) j.copy.port none none).2.entry i =
      ⟨(u.entry i).version, .suspect (.damaged b)⟩ := by rw [detect_entry, setEntry_entry_same]
  rw [readEntryBody_of_index hn, checkEntry_of_damaged _ hb, entryBytes_eq hn he]
  rfl

end

/-! ## FIND-ENTRY (R12, R153) -/

theorem classOperand_setWidth (c : BitVec 3) : classOperand (c.setWidth 8) = some c := by
  revert c
  decide

theorem findEntryBody_of_operands {u : State} {j : Job} {hi lo : Byte} {p : Port} {d : Address} {c : BitVec 3}
    {x : LookupResult} {t : State} (h : half hi lo = d.setWidth 16) (hl : u.lookup d c p j.copy.port none = (x, t)) :
    findEntryBody [hi, lo, c.setWidth 8, p.code] j u = (.result .ok x.used.bytes, t) := by
  rw [findEntryBody, portOperand_code, addressField_of_half h, classOperand_setWidth]
  dsimp only
  rw [hl]
  rfl

section
variable {s : State} {j : Job} {hi lo : Byte}

/-- READ-ENTRY of an entry without a parity failure, when it is due. -/
theorem exec_readEntry_of_good {i : EntryNo} (hd : OrderDue s j ⟨0x10, [hi, lo]⟩ 16) (hn : (half hi lo).toNat = i.val)
    (hb : ∀ b, (s.entry i).body.stored? ≠ some (.damaged b)) :
    exec (.readEntry [hi, lo] []) s = .next ((s.settle (.readEntry [hi, lo] [])).conclude j 0x10 .ok
      ([hi, lo] ++ [(s.entry i).body.code] ++ be16 (s.entry i).version ++
        ((s.entry i).body.stored?.map Stored.bytes).getD [])) :=
  congrArg Host.Outcome.next (dealOrder_of_ok hd
    (readEntryBody_of_good (u := s.settle (.readEntry [hi, lo] [])) (j := j) hn hb))

/-- FIND-ENTRY, when it is due, answers with its lookup. -/
theorem exec_findEntry_of_due {p : Port} {d : Address} {c : BitVec 3} {x : LookupResult} {t : State}
    (hd : OrderDue s j ⟨0x13, [hi, lo, c.setWidth 8, p.code]⟩ 2) (h : half hi lo = d.setWidth 16)
    (hl : (s.settle (.findEntry [hi, lo, c.setWidth 8, p.code] [])).lookup d c p j.copy.port none = (x, t)) :
    exec (.findEntry [hi, lo, c.setWidth 8, p.code] []) s = .next (t.conclude j 0x13 .ok x.used.bytes) :=
  congrArg Host.Outcome.next (dealOrder_of_ok hd (findEntryBody_of_operands (j := j) h hl))

end

/-- Settles O36: by what the stored content of the entry is, and by what the lookup finds. -/
theorem tableReads : Obligations.TableReads := by
  unfold Obligations.TableReads
  refine ⟨fun s j hi lo i hd hn => ?read, fun s j hi lo cls p d c hd h hc => ?find⟩
  case read =>
    dsimp only
    refine ⟨fun hb => ?_, fun x hb => ?_, fun x hb => ?_, fun b hb => ?_⟩
    · refine (exec_readEntry_of_good hd hn fun b => by rw [hb]; exact fun h => by cases h).trans ?_
      rw [hb, EntryBody.stored?, Option.map_none, Option.getD_none, List.append_nil]
      rfl
    · refine (exec_readEntry_of_good hd hn fun b => by rw [hb]; exact fun h => by cases h).trans ?_
      rw [hb]
      rfl
    · refine (exec_readEntry_of_good hd hn fun b => by rw [hb]; exact fun h => by cases h).trans ?_
      rw [hb]
      rfl
    · have hs : (s.entry i).body.stored? = some (.damaged b) := by rcases hb with hb | hb <;> (rw [hb]; rfl)
      exact congrArg Host.Outcome.next (dealOrder_of_ok hd
        (readEntryBody_of_damaged (u := s.settle (.readEntry [hi, lo] [])) (j := j) hn hs))
  case find =>
    subst hc
    have hs := search_of_entries (s := s) (t := s.settle (.findEntry [hi, lo, c.setWidth 8, p.code] [])) rfl d c p
    dsimp only
    refine ⟨fun hm => ?_, fun i x hm hb => ?_, fun i b hm hb => ?_⟩
    · exact exec_findEntry_of_due hd h (lookup_of_none (hs.trans (search_of_nothing hm)) _ _)
    · exact exec_findEntry_of_due hd h (lookup_of_sound (hs.trans (search_of_one hm)) hb _ _)
    · exact exec_findEntry_of_due hd h (lookup_of_damaged (hs.trans (search_of_one hm)) hb _ _)

/-! ## WRITE-ENTRY (R13 to R17) -/

theorem and_ne_zero_iff {w : Nat} (x y : BitVec w) :
    (x &&& y != 0) = true ↔ ∃ n, x.getLsbD n = true ∧ y.getLsbD n = true := by
  rw [bne_iff_ne]
  constructor
  · intro h
    by_contra hn
    refine h (BitVec.eq_of_getLsbD_eq fun n _ => ?_)
    rw [BitVec.getLsbD_and, show BitVec.getLsbD (0 : BitVec w) n = false from BitVec.getLsbD_zero, Bool.and_eq_false_iff]
    by_contra hb
    push Not at hb
    exact hn ⟨n, by simpa using hb.1, by simpa using hb.2⟩
  · rintro ⟨n, hx, hy⟩ h
    have hbit := congrArg (BitVec.getLsbD · n) h
    simp [BitVec.getLsbD_and, hx, hy] at hbit

/-- Two sound keys overlap (R6). -/
theorem sound_overlaps_iff (x : Content) (k : Key) : (Stored.sound x).overlaps k = true ↔
    x.key.dest = k.dest ∧ (∃ n, x.key.classes.getLsbD n = true ∧ k.classes.getLsbD n = true) ∧
      (∃ n, x.key.ports.getLsbD n = true ∧ k.ports.getLsbD n = true) := by
  rw [Stored.overlaps, Key.overlaps, Bool.and_eq_true, Bool.and_eq_true, and_ne_zero_iff, and_ne_zero_iff,
    decide_eq_true_iff, and_assoc]
  simp only [and_comm, eq_comm]

/-- A damaged key is compared bit for bit (R10, R16). -/
theorem damaged_overlaps_iff (b : Vector Byte 11) (k : Key) : (Stored.damaged b).overlaps k = true ↔
    half b[0] b[1] = k.dest.setWidth 16 ∧ (∃ n, b[2].getLsbD n = true ∧ k.classes.getLsbD n = true) ∧
      (∃ n, b[3].getLsbD n = true ∧ k.ports.getLsbD n = true) := by
  have hports (n : Nat) : (k.ports.setWidth 8).getLsbD n = k.ports.getLsbD n := by
    rw [BitVec.getLsbD_setWidth]
    by_cases hn : n < 8
    · simp [hn]
    · rw [BitVec.getLsbD_of_ge k.ports n (by omega)]
      simp
  rw [Stored.overlaps, Bool.and_eq_true, Bool.and_eq_true, and_ne_zero_iff, and_ne_zero_iff, decide_eq_true_iff,
    and_assoc]
  simp only [hports]

section
variable {s : State} {i : EntryNo} {k : Key}

/-- The entries that stand against a key at index `i` (R16). -/
def State.clashes (s : State) (i : EntryNo) (k : Key) (n : EntryNo) : Prop :=
  n ≠ i ∧ ∃ y, (s.entry n).body = .valid y ∧ y.overlaps k = true

theorem conflict_test (n : EntryNo) :
    (n ≠ i && (match (s.entry n).body with | .valid x => x.overlaps k | _ => false)) = true ↔ s.clashes i k n := by
  rw [Bool.and_eq_true, decide_eq_true_iff, State.clashes]
  refine and_congr_right fun _ => ?_
  cases (s.entry n).body <;> simp

theorem conflict_of_clash {n : EntryNo} (hn : s.clashes i k n) (hm : ∀ m, m < n → ¬ s.clashes i k m) :
    s.conflict i k = some n := by
  unfold State.conflict
  rw [List.find?_eq_some_iff_getElem]
  refine ⟨(conflict_test n).mpr hn, n.val, by simp, by simp, fun m hlt => ?_⟩
  simp only [List.getElem_finRange, Bool.not_eq_eq_eq_not, Bool.not_true]
  rw [← Bool.not_eq_true]
  exact fun h => hm ⟨m, by omega⟩ hlt ((conflict_test _).mp h)

theorem conflict_of_none (hn : ∀ n, ¬ s.clashes i k n) : s.conflict i k = none := by
  unfold State.conflict
  rw [List.find?_eq_none]
  exact fun n _ h => hn n ((conflict_test n).mp h)

end

end Sys2Proof.Machine
end

section
/-! SUPPORT. The families of the table writes. -/

namespace Sys2Proof.Machine

open Sys2Proof

section
variable {u : State} {i : EntryNo} {c : Content} {expected : Version}

/-! ## Version, conflict, write (R15 to R17) -/

theorem writeEntry_of_version (h : expected ≠ (u.entry i).version) :
    u.writeEntry i expected c = (.result .versionMismatch (be16 (u.entry i).version), u) := by
  rw [State.writeEntry]
  exact if_pos h

theorem writeEntry_of_conflict {n : EntryNo} (h : expected = (u.entry i).version)
    (hn : u.conflict i c.key = some n) :
    u.writeEntry i expected c = (.result .conflict (be16 (BitVec.ofNat 16 n.val)), u) := by
  simp only [State.writeEntry, h, ne_eq, not_true_eq_false, if_false, hn]
  rfl

theorem writeEntry_of_free (h : expected = (u.entry i).version) (hn : u.conflict i c.key = none) :
    u.writeEntry i expected c = (.result .ok (be16 ((u.entry i).version + 1)),
      u.setEntry i ⟨(u.entry i).version + 1, .valid (.sound c)⟩) := by
  simp only [State.writeEntry, h, ne_eq, not_true_eq_false, if_false, hn]
  rfl

theorem freeEntry_of_version (h : expected ≠ (u.entry i).version) :
    u.freeEntry i expected = (.result .versionMismatch (be16 (u.entry i).version), u) := by
  rw [State.freeEntry]
  exact if_pos h

theorem freeEntry_of_match (h : expected = (u.entry i).version) :
    u.freeEntry i expected = (.result .ok (be16 ((u.entry i).version + 1)),
      u.setEntry i ⟨(u.entry i).version + 1, .free⟩) := by
  rw [State.freeEntry]
  exact if_neg (not_not.mpr h)

theorem writeDefault_of_version {p : Port} {x : Disposition} (h : expected ≠ (u.defaults.get p).version) :
    u.writeDefault p expected x = (.result .versionMismatch (be16 (u.defaults.get p).version), u) := by
  rw [State.writeDefault]
  exact if_pos h

theorem writeDefault_of_match {p : Port} {x : Disposition} (h : expected = (u.defaults.get p).version) :
    u.writeDefault p expected x = (.result .ok (be16 ((u.defaults.get p).version + 1)),
      { u with defaults := u.defaults.set p ⟨(u.defaults.get p).version + 1, x⟩ }) := by
  rw [State.writeDefault]
  exact if_neg (not_not.mpr h)

end

section
variable {s : State} {j : Job} {i1 i0 v1 v0 : Byte} {i : EntryNo}

/-- The operands of a WRITE-ENTRY of a legal content, read back. -/
theorem writeEntryBody_of_content {x : Content} (hj : FromHolder s j) (hi : (half i1 i0).toNat = i.val)
    (hx : x.legal = true) (c : Instr) :
    writeEntryBody ([i1, i0, v1, v0] ++ (x.key.bytes ++ x.disposition.bytes)) j (s.settle c) =
      (s.settle c).writeEntry i (half v1 v0) x := by
  obtain ⟨hk, hd⟩ := (Bool.and_eq_true _ _).mp hx
  obtain ⟨d1, d0, hb, hkey⟩ := key_bytes_read hk
  obtain ⟨count, t0, t1, t2, hb', hdisp⟩ := disposition_bytes_read hd
  rw [hb, hb']
  simp only [List.cons_append, List.nil_append, writeEntryBody]
  rw [holderOnly_of_fromHolder hj, entryOperand_of_toNat hi, hkey, hdisp]
  rfl

theorem freeEntryBody_of_index (hj : FromHolder s j) (hi : (half i1 i0).toNat = i.val) (c : Instr) :
    freeEntryBody [i1, i0, v1, v0] j (s.settle c) = (s.settle c).freeEntry i (half v1 v0) := by
  rw [freeEntryBody, holderOnly_of_fromHolder hj, entryOperand_of_toNat hi]

theorem writeDefaultBody_of_disposition {p : Port} {x : Disposition} (hj : FromHolder s j)
    (hx : x.action.legal = true) (c : Instr) :
    writeDefaultBody ([p.code, v1, v0] ++ x.bytes) j (s.settle c) = (s.settle c).writeDefault p (half v1 v0) x := by
  obtain ⟨count, t0, t1, t2, hb, hdisp⟩ := disposition_bytes_read hx
  rw [hb]
  simp only [List.cons_append, List.nil_append, writeDefaultBody]
  rw [holderOnly_of_fromHolder hj, portOperand_code, hdisp]

end

/-- Settles O37: the two overlaps bit by bit; then version, conflict and write on the operands read back. -/
theorem writeEntryOutcomes : Obligations.WriteEntryOutcomes := by
  unfold Obligations.WriteEntryOutcomes
  refine ⟨sound_overlaps_iff, damaged_overlaps_iff, fun s j i1 i0 v1 v0 i x => ?_⟩
  dsimp only
  intro hd hj hi hx
  have hb := writeEntryBody_of_content (v1 := v1) (v0 := v0) hj hi hx
    (.writeEntry ([i1, i0, v1, v0] ++ (x.key.bytes ++ x.disposition.bytes)) [])
  refine ⟨fun hv => ?version, fun n hv hn hm => ?conflict, fun hv hn => ?write⟩
  case version =>
    exact congrArg Host.Outcome.next
      (dealOrder_of_refused hd (by decide) (by decide) (hb.trans (writeEntry_of_version hv)))
  case conflict =>
    exact congrArg Host.Outcome.next
      (dealOrder_of_refused hd (by decide) (by decide) (hb.trans (writeEntry_of_conflict hv (conflict_of_clash hn hm))))
  case write =>
    exact congrArg Host.Outcome.next (dealOrder_of_ok hd (hb.trans (writeEntry_of_free hv (conflict_of_none hn))))

/-- Settles O38: the version test of each order on the operands read back. -/
theorem freeEntryAndWriteDefault : Obligations.FreeEntryAndWriteDefault := by
  unfold Obligations.FreeEntryAndWriteDefault
  refine ⟨fun s j i1 i0 v1 v0 i hd hj hi => ⟨fun hv => ?_, fun hv => ?_⟩, fun s j p v1 v0 x => ?_⟩
  · exact congrArg Host.Outcome.next (dealOrder_of_refused hd (by decide) (by decide)
      ((freeEntryBody_of_index hj hi _).trans (freeEntry_of_version hv)))
  · exact congrArg Host.Outcome.next (dealOrder_of_ok hd
      ((freeEntryBody_of_index hj hi _).trans (freeEntry_of_match hv)))
  · dsimp only
    intro hd hj hx
    have hb := writeDefaultBody_of_disposition (p := p) (v1 := v1) (v0 := v0) hj hx
      (.writeDefault ([p.code, v1, v0] ++ x.bytes))
    refine ⟨fun hv => ?_, fun hv => ?_⟩
    · exact congrArg Host.Outcome.next
        (dealOrder_of_refused hd (by decide) (by decide) (hb.trans (writeDefault_of_version hv)))
    · exact congrArg Host.Outcome.next (dealOrder_of_ok hd (hb.trans (writeDefault_of_match hv)))

end Sys2Proof.Machine
end

section
/-! SUPPORT. The families of the deque orders and of the drain. -/

namespace Sys2Proof.Machine

open Sys2Proof

theorem bindingOperand_code {b : Binding} (h : b ≠ .mgmt) : bindingOperand b.code = some b := by
  cases b with
  | unbound => rfl
  | mgmt => exact absurd rfl h
  | port p => cases p <;> rfl

theorem priorityOperand_ofNat (v : Fin 8) : priorityOperand (BitVec.ofNat 8 v.val) = some v.castSucc := by
  revert v
  decide

theorem configOperand_of_values {b : Binding} {v : Fin 8} {limit : Byte} {policy : Policy} {dwell1 dwell0 : Byte}
    {retain : Bool} (hb : b ≠ .mgmt) (hl : limit ≠ 0) :
    configOperand b.code (BitVec.ofNat 8 v.val) limit policy.code dwell1 dwell0 (boolByte retain) =
      some ⟨b, some v.castSucc, limit, policy, half dwell1 dwell0, some retain⟩ := by
  have hlimit : limitOperand limit = some limit := if_neg hl
  rw [configOperand, bindingOperand_code hb, priorityOperand_ofNat, hlimit, policyOperand_code, boolOperand_boolByte]

theorem isFixed_iff {d : DequeNo} : isFixed d = true ↔ 28 ≤ d.val := decide_eq_true_iff

theorem not_isFixed {d : DequeNo} (h : d.val < 28) : ¬ isFixed d = true := fun hf => by
  rw [isFixed_iff] at hf
  omega

section
variable {s : State} {j : Job} {d : DequeNo}

/-! ## SET-DEQUE (R40) -/

section
variable {b1 b2 b3 b4 b5 b6 b7 : Byte} {c : DequeConfig}

theorem setDequeBody_of_config (hj : FromHolder s j) (hc : configOperand b1 b2 b3 b4 b5 b6 b7 = some c) (x : Instr) :
    setDequeBody [BitVec.ofNat 8 d.val, b1, b2, b3, b4, b5, b6, b7] j (s.settle x) =
      if isFixed d then refuse .fixedDeque (s.settle x)
      else if (s.deque d).state = DequeState.detached then
        accept [] ((s.settle x).setDeque d { s.deque d with config := c })
      else refuse .wrongState (s.settle x) := by
  rw [setDequeBody, holderOnly_of_fromHolder hj, dequeOperand_ofNat, hc]
  rfl

end

/-! ## OPEN-, PAUSE- and RESUME-DEQUE (R41, R42) -/

section
variable {allowed : Deque → Bool} {change : DequeNo → State → State} {x : Instr}

theorem stateOrder_of_fixed (hj : FromHolder s j) (h : 28 ≤ d.val) :
    stateOrder [BitVec.ofNat 8 d.val] allowed change j (s.settle x) = (.result .fixedDeque [], s.settle x) := by
  rw [stateOrder, holderOnly_of_fromHolder hj, dequeOperand_ofNat]
  exact if_pos (isFixed_iff.mpr h)

theorem stateOrder_of_not_allowed (hj : FromHolder s j) (h : d.val < 28) (ha : allowed (s.deque d) = false) :
    stateOrder [BitVec.ofNat 8 d.val] allowed change j (s.settle x) = (.result .wrongState [], s.settle x) := by
  have ha' : ¬ allowed ((s.settle x).deque d) = true := by
    rw [show (s.settle x).deque d = s.deque d from rfl, ha]
    exact Bool.false_ne_true
  rw [stateOrder, holderOnly_of_fromHolder hj, dequeOperand_ofNat]
  exact (if_neg (not_isFixed h)).trans (if_neg ha')

theorem stateOrder_of_allowed (hj : FromHolder s j) (h : d.val < 28) (ha : allowed (s.deque d) = true) :
    stateOrder [BitVec.ofNat 8 d.val] allowed change j (s.settle x) = (.result .ok [], change d (s.settle x)) := by
  have ha' : allowed ((s.settle x).deque d) = true := ha
  rw [stateOrder, holderOnly_of_fromHolder hj, dequeOperand_ofNat]
  exact (if_neg (not_isFixed h)).trans (if_pos ha')

end

/-- A deque that becomes ACTIVE is offered to its port (R39). -/
theorem offer_of_activated {p : Port} (x : Instr) (hb : (s.deque d).config.binding = .port p) :
    ((s.settle x).setDequeState d .active).offer d =
      ((s.settle x).setDeque d { s.deque d with state := .active }).raise (.takeAttempt p) := by
  have hq : ((s.settle x).setDequeState d .active).deque d = { s.deque d with state := .active } :=
    setDeque_deque_same ..
  rw [State.offer, hq]
  dsimp only
  rw [hb]
  rfl

end

/-- Settles O39: the fixed deques, the state test and the change, order by order. -/
theorem dequeOrders : Obligations.DequeOrders := by
  unfold Obligations.DequeOrders
  intro s j d hj
  dsimp only
  refine ⟨fun b v limit policy dwell1 dwell0 retain hd hb hl => ?set, fun hd => ?opened, fun hd => ?pause, fun hd => ?resume⟩
  case set =>
    have hbody := setDequeBody_of_config (d := d) hj
      (configOperand_of_values (v := v) (policy := policy) (dwell1 := dwell1) (dwell0 := dwell0) (retain := retain) hb hl)
      (.setDeque [BitVec.ofNat 8 d.val, b.code, BitVec.ofNat 8 v.val, limit, policy.code, dwell1, dwell0, boolByte retain])
    refine ⟨fun hf => ?_, fun hf hs => ?_, fun hf hs => ?_⟩
    · rw [if_pos (isFixed_iff.mpr hf)] at hbody
      exact congrArg Host.Outcome.next (dealOrder_of_refused hd (by decide) (by decide) hbody)
    · rw [if_neg (not_isFixed hf), if_neg hs] at hbody
      exact congrArg Host.Outcome.next (dealOrder_of_refused hd (by decide) (by decide) hbody)
    · rw [if_neg (not_isFixed hf), if_pos hs] at hbody
      exact congrArg Host.Outcome.next (dealOrder_of_ok hd hbody)
  case opened =>
    refine ⟨fun hf => ?_, fun hf hs => ?_, fun hf hs p hp => ?_⟩
    · exact congrArg Host.Outcome.next (dealOrder_of_refused hd (by decide) (by decide) (stateOrder_of_fixed hj hf))
    · refine congrArg Host.Outcome.next (dealOrder_of_refused hd (by decide) (by decide)
        (stateOrder_of_not_allowed hj hf ?_))
      rw [Bool.and_eq_false_iff, decide_eq_false_iff_not, decide_eq_false_iff_not, not_not]
      exact hs
    · refine congrArg Host.Outcome.next (dealOrder_of_ok hd ((stateOrder_of_allowed hj hf ?_).trans ?_))
      · simp [hs, hp]
      · exact congrArg (Prod.mk _) (offer_of_activated _ hp)
  case pause =>
    refine ⟨fun hf => ?_, fun hf hs => ?_, fun hf hs => ?_⟩
    · exact congrArg Host.Outcome.next (dealOrder_of_refused hd (by decide) (by decide) (stateOrder_of_fixed hj hf))
    · exact congrArg Host.Outcome.next (dealOrder_of_refused hd (by decide) (by decide)
        (stateOrder_of_not_allowed hj hf (decide_eq_false hs)))
    · exact congrArg Host.Outcome.next (dealOrder_of_ok hd (stateOrder_of_allowed hj hf (decide_eq_true hs)))
  case resume =>
    refine ⟨fun hf => ?_, fun hf hs => ?_, fun hf hs p hp => ?_⟩
    · exact congrArg Host.Outcome.next (dealOrder_of_refused hd (by decide) (by decide) (stateOrder_of_fixed hj hf))
    · exact congrArg Host.Outcome.next (dealOrder_of_refused hd (by decide) (by decide)
        (stateOrder_of_not_allowed hj hf (decide_eq_false hs)))
    · refine congrArg Host.Outcome.next (dealOrder_of_ok hd
        ((stateOrder_of_allowed hj hf (decide_eq_true hs)).trans ?_))
      exact congrArg (Prod.mk _) (offer_of_activated _ hp)

/-! ## DRAIN-DEQUE (R44) -/

theorem targetOperand_read (target : DrainTarget) :
    targetOperand (match target with | .detached => 0 | .active => 1) = some target := by
  cases target <;> rfl

/-- A deque that is not DRAINING may drain, to ACTIVE with a binding only (R44). -/
theorem mayDrain_of_not_draining {q : Deque} (hq : ∀ t n, q.state ≠ .draining t n) (target : DrainTarget) :
    q.mayDrain target = true ↔ (target = .active → q.config.binding ≠ .unbound) := by
  have hs : (match q.state with | .draining _ _ => false | _ => true) = true := by
    cases h : q.state with
    | draining t n => exact absurd h (hq t n)
    | detached => rfl
    | active => rfl
    | paused => rfl
  unfold Deque.mayDrain
  cases target with
  | detached => exact ⟨fun _ h => (nomatch h), fun _ => (Bool.and_true _).trans hs⟩
  | active =>
    rw [Bool.and_eq_true, decide_eq_true_iff]
    exact ⟨fun h _ => h.2, fun h => ⟨hs, h rfl⟩⟩

theorem setDeque_self (d : DequeNo) (s : State) : s.setDeque d (s.deque d) = s := by
  exact congrArg (fun v => { s with deques := v }) (Vector.set_getElem_self d.isLt)

section
variable {s : State} {j : Job} {d : DequeNo} {target : DrainTarget} {b : Byte} {x : Instr}

theorem drainDequeBody_of_fixed (hj : FromHolder s j) (hb : targetOperand b = some target) (hf : 28 ≤ d.val) :
    drainDequeBody [BitVec.ofNat 8 d.val, b] j (s.settle x) = (.result .fixedDeque [], s.settle x) := by
  rw [drainDequeBody, holderOnly_of_fromHolder hj, dequeOperand_ofNat, hb]
  exact if_pos (isFixed_iff.mpr hf)

theorem drainDequeBody_of_wrong (hj : FromHolder s j) (hb : targetOperand b = some target) (hf : d.val < 28)
    (hm : ¬ (s.deque d).mayDrain target = true) :
    drainDequeBody [BitVec.ofNat 8 d.val, b] j (s.settle x) = (.result .wrongState [], s.settle x) := by
  have hm' : ¬ ((s.settle x).deque d).mayDrain target = true := hm
  rw [drainDequeBody, holderOnly_of_fromHolder hj, dequeOperand_ofNat, hb]
  exact (if_neg (not_isFixed hf)).trans (if_neg hm')

theorem drainDequeBody_of_start (hj : FromHolder s j) (hb : targetOperand b = some target) (hf : d.val < 28)
    (hm : (s.deque d).mayDrain target = true) :
    drainDequeBody [BitVec.ofNat 8 d.val, b] j (s.settle x) = (s.settle x).startDrain d target := by
  have hm' : ((s.settle x).deque d).mayDrain target = true := hm
  rw [drainDequeBody, holderOnly_of_fromHolder hj, dequeOperand_ofNat, hb]
  exact (if_neg (not_isFixed hf)).trans (if_pos hm')

theorem startDrain_of_entries {u : State} (he : (u.deque d).entries ≠ []) : u.startDrain d target =
    (.wait, (u.setDeque d { u.deque d with state := .draining target 0 }).raise (.drainRemoval d)) := by
  rw [State.startDrain, if_neg he]
  rfl

/-- An empty deque that becomes ACTIVE, or DETACHED, is offered (R39). -/
theorem startDrain_of_empty {u : State} (he : (u.deque d).entries = []) (hs : (u.deque d).state ≠ .active) :
    u.startDrain d target = (.result .ok [0], (u.setDequeState d target.state).offer d) := by
  rw [State.startDrain, if_pos he]
  exact congrArg (Prod.mk _) (if_neg hs)

/-- An empty deque that was ACTIVE already is not offered (entry 24). -/
theorem startDrain_of_active {u : State} (he : (u.deque d).entries = []) (hs : (u.deque d).state = .active) :
    u.startDrain d target = (.result .ok [0], u.setDequeState d target.state) := by
  rw [State.startDrain, if_pos he]
  exact congrArg (Prod.mk _) (if_pos hs)

/-- A DETACHED deque is offered to nobody (R39). -/
theorem offer_of_detached (u : State) (d : DequeNo) :
    (u.setDequeState d .detached).offer d = u.setDequeState d .detached := by
  have hq : (u.setDequeState d .detached).deque d = { u.deque d with state := .detached } := setDeque_deque_same ..
  rw [State.offer, hq]

end

/-- Settles O40: the fixed deques, the binding test, then the start of the drain. -/
theorem drainOrder : Obligations.DrainOrder := by
  unfold Obligations.DrainOrder
  intro s j d target
  dsimp only
  intro hd hj hn
  have hb := targetOperand_read target
  have hm := mayDrain_of_not_draining hn target
  refine ⟨fun hf => ?fixed, fun hf ht hu => ?wrong, fun hf ht he => ?wait, fun hf ht he => ?detached,
    fun hf ht he hs p hp => ?active, fun hf ht he hs hu => ?still⟩
  case fixed =>
    exact congrArg Host.Outcome.next
      (dealOrder_of_refused hd (by decide) (by decide) (drainDequeBody_of_fixed hj hb hf))
  case wrong =>
    exact congrArg Host.Outcome.next
      (dealOrder_of_refused hd (by decide) (by decide) (drainDequeBody_of_wrong hj hb hf fun h => hm.mp h ht hu))
  case wait =>
    exact congrArg Host.Outcome.next
      (dealOrder_of_wait hd ((drainDequeBody_of_start hj hb hf (hm.mpr ht)).trans (startDrain_of_entries he)))
  case detached =>
    refine congrArg Host.Outcome.next (dealOrder_of_ok hd ((drainDequeBody_of_start hj hb hf
      (hm.mpr fun h => by rw [ht] at h; cases h)).trans ?_))
    subst ht
    by_cases hs : (s.deque d).state = .active
    · exact startDrain_of_active (u := s.settle _) he hs
    · exact (startDrain_of_empty (u := s.settle _) he hs).trans (congrArg (Prod.mk _) (offer_of_detached _ d))
  case active =>
    refine congrArg Host.Outcome.next (dealOrder_of_ok hd ((drainDequeBody_of_start hj hb hf
      (hm.mpr fun _ => by rw [hp]; exact fun h => by cases h)).trans ?_))
    subst ht
    exact (startDrain_of_empty (u := s.settle _) he hs).trans (congrArg (Prod.mk _) (offer_of_activated _ hp))
  case still =>
    refine congrArg Host.Outcome.next (dealOrder_of_ok hd ((drainDequeBody_of_start hj hb hf
      (hm.mpr fun _ => hu)).trans ?_))
    subst ht
    have hq : { s.deque d with state := .active } = s.deque d := by rw [← hs]
    exact (startDrain_of_active (u := s.settle _) he hs).trans
      (congrArg (Prod.mk _) ((congrArg (State.setDeque d · _) hq).trans (setDeque_self d (s.settle _))))

end Sys2Proof.Machine
end

section
/-! SUPPORT. The families of the port orders and of the reporting orders. -/

namespace Sys2Proof.Machine

open Sys2Proof

/-! ## The link of a port that goes through detection again (R107) -/

section
variable {s : State} {j : Job} {p : Port}

theorem updPort_setPort (p : Port) (f : PortState → PortState) (y : PortState) (s : State) :
    (s.setPort p y).updPort p f = s.setPort p (f y) := by
  rw [updPort_eq, setPort_port_same, setPort_setPort]

/-- A link that is not UP has nothing to end. -/
theorem retrain_of_not_up (hl : (s.port p).link.isUp = false) : s.retrain p =
    s.setPort p { s.port p with link := .down, quietUntil := some (s.timebase + 2000) } := by
  unfold State.retrain
  cases h : (s.port p).link with
  | up n =>
    rw [h] at hl
    cases hl
  | sync n =>
    dsimp only
    rw [setLink_eq, updPort_setPort]
    rfl
  | down =>
    have hd : { s.port p with link := .down } = s.port p := by rw [← h]
    have hp : { s.port p with link := .down, quietUntil := some (s.timebase + 2000) } =
        { s.port p with quietUntil := some (s.timebase + 2000) } :=
      congrArg (fun y : PortState => { y with quietUntil := some (s.timebase + 2000) }) hd
    rw [hp]
    rfl

theorem exec_portOrder_of_ok {c : Byte} {x : Instr} {effect : Port → State → State}
    (hx : orderCommand ⟨c, [p.code]⟩ = x) (hd : OrderDue s j ⟨c, [p.code]⟩ 0) (hj : FromHolder s j) :
    s.dealOrder ⟨c, [p.code]⟩ 0 (portOrder [p.code] effect) = (effect p (s.settle x)).conclude j c .ok [] := by
  subst hx
  exact dealOrder_of_ok hd (portOrder_of_fromHolder hj _ p effect)

theorem isUp_iff {x : LinkState} : x.isUp = true ↔ ∃ n, x = .up n := by
  cases x <;> simp [LinkState.isUp]

end

/-- Settles O41: the held flag as it is written, and the link by whether it was UP. -/
theorem portOrders : Obligations.PortOrders := by
  unfold Obligations.PortOrders
  intro s j p hj
  refine ⟨fun hd => ?hold, fun hd => ?unhold, fun hd hl => ?detect, fun hd hl => ?leave, fun hd hl ht => ?quiet⟩
  case hold => exact congrArg Host.Outcome.next (exec_portOrder_of_ok rfl hd hj)
  case unhold => exact congrArg Host.Outcome.next (exec_portOrder_of_ok rfl hd hj)
  case detect =>
    exact congrArg Host.Outcome.next ((exec_portOrder_of_ok rfl hd hj).trans
      (congrArg (State.conclude j 0x33 .ok []) (retrain_of_not_up (s := s.settle _) hl)))
  case leave =>
    obtain ⟨n, hn⟩ := isUp_iff.mp hl
    obtain ⟨o, ho⟩ := leaveUp_port p (s.settle (.retrainPort [p.code]))
    refine ⟨_, _, exec_retrainPort_of_up hn hd hj, rfl, ?_⟩
    rw [updPort_port_same, ho]
    refine ⟨rfl, rfl, rfl, rfl, rfl, rfl, rfl, fun q hq => ?_, leaveUp_sameElsewhere p (s.settle _)⟩
    rw [updPort_port_of_ne _ _ hq, leaveUp_port_of_ne hq]
    rfl
  case quiet =>
    obtain ⟨n, hn⟩ := isUp_iff.mp hl
    dsimp only
    refine ⟨fun hr => ?_, fun x f hr hf => ?_⟩
    · rw [exec_retrainPort_of_up hn hd hj, leaveUp_of_quiet (s := s.settle _) ht hr, updPort_setPort, report_setPort]
      rfl
    · rw [exec_retrainPort_of_up hn hd hj, leaveUp_of_receiving (s := s.settle _) ht hr hf, updPort_setPort,
        report_setPort, report_setPort, freeFrame_setPort]
      rfl

/-! ## ACK-EXCEPTIONS, SET-REPORTING and CLEAR-CHECKS (R162 to R164) -/

/-- What an acknowledgement keeps, in numbers. -/
theorem not_atOrBefore (a : Byte) : (fun r : ExceptionRecord => !atOrBefore a r.seq) =
    fun r => decide (128 ≤ (a - r.seq).toNat) := by
  funext r
  rw [atOrBefore, ← decide_not]
  simp only [Nat.not_lt]

section
variable {s : State} {j : Job}

theorem exec_ackExceptions_of_due {a : Byte} (hd : OrderDue s j ⟨0x41, [a]⟩ 1) (hj : FromHolder s j) :
    exec (.ackExceptions [a]) s = .next (((s.settle (.ackExceptions [a])).acknowledge a).conclude j 0x41 .ok
      [BitVec.ofNat 8 (s.exc.freedBy a)]) :=
  congrArg Host.Outcome.next (dealOrder_of_ok hd (holderOnly_of_fromHolder hj _ _))

theorem exec_clearChecks_of_due (hd : OrderDue s j ⟨0x51, []⟩ 0) (hj : FromHolder s j) :
    exec (.clearChecks []) s = .next ((s.settle (.clearChecks [])).clearChecks.conclude j 0x51 .ok []) :=
  congrArg Host.Outcome.next (dealOrder_of_ok hd (holderOnly_of_fromHolder hj _ _))

theorem maskOperand_of_classes {b : Byte} (h0 : b.getLsbD 0 = false) (h6 : b.getLsbD 6 = false)
    (h7 : b.getLsbD 7 = false) :
    maskOperand b = some ⟨b.getLsbD 1, b.getLsbD 2, b.getLsbD 3, b.getLsbD 4, b.getLsbD 5⟩ :=
  if_neg (by rw [h0, h6, h7]; exact Bool.false_ne_true)

theorem levelOperand_of_toNat {b : Byte} {l : Fin 4} (h : b.toNat = l.val) : levelOperand b = some l := by
  simp [levelOperand, h, l.isLt]

theorem setReportingBody_of_values {mask level : Byte} {notices : Bool} {l : Fin 4} (hj : FromHolder s j)
    (hl : level.toNat = l.val) (h0 : mask.getLsbD 0 = false) (h6 : mask.getLsbD 6 = false)
    (h7 : mask.getLsbD 7 = false) (x : Instr) :
    setReportingBody [mask, level, boolByte notices] j (s.settle x) = (.result .ok [], (s.settle x).setReporting
      ⟨mask.getLsbD 1, mask.getLsbD 2, mask.getLsbD 3, mask.getLsbD 4, mask.getLsbD 5⟩ l notices) := by
  rw [setReportingBody, holderOnly_of_fromHolder hj, maskOperand_of_classes h0 h6 h7, levelOperand_of_toNat hl,
    boolOperand_boolByte]
  rfl

end

/-- Settles O42: the records kept by an acknowledgement, and the two orders that write their values. -/
theorem reportingOrders : Obligations.ReportingOrders := by
  unfold Obligations.ReportingOrders
  intro s j hj
  refine ⟨fun a hd => ?acknowledge, fun mask level notices l hd hl h0 h6 h7 => ?report, fun hd => exec_clearChecks_of_due hd hj⟩
  case acknowledge =>
    have hfreed : s.exc.freedBy a = s.exc.records.countP fun r => decide ((a - r.seq).toNat < 128) :=
      List.countP_eq_length_filter.symm
    refine ⟨(s.settle (.ackExceptions [a])).acknowledge a, ?_, rfl, ?_, fun i => ?_, rfl, rfl, rfl, rfl⟩
    · rw [exec_ackExceptions_of_due hd hj, hfreed]
    · rw [← not_atOrBefore]
      rfl
    · rw [← not_atOrBefore]
      exact retain_slot s.exc _ i
  case report =>
    exact congrArg Host.Outcome.next (dealOrder_of_ok hd (setReportingBody_of_values hj hl h0 h6 h7 _))

end Sys2Proof.Machine
end

section
/-! SUPPORT. The families of the two order resets. -/

namespace Sys2Proof.Machine

open Sys2Proof

/-! ## The frame that a reset cuts short (R100, entry 10) -/

/-- What can have left of a frame is a first part of it, of 8 bytes or more. -/
theorem sendable_take {s : State} {r : RecordNo} {h : HeldFrame} (hr : s.record r = .held h) (unread : List CellNo)
    {n : Nat} (hn : 8 ≤ n) : ∃ k, 8 ≤ k ∧ (s.sendable r unread (s.sentBytes r)).take n = (s.sentBytes r).take k := by
  unfold State.sendable
  split
  · rename_i c hc
    have hb : s.bytesBefore r c = (s.sentBytes r).take (max 8 (128 * (h.cells.takeWhile (· ≠ c)).length)) := by
      simp only [State.bytesBefore, State.sentBytes, State.held?, hr]
    refine ⟨min n (max 8 (128 * (h.cells.takeWhile (· ≠ c)).length)), by omega, ?_⟩
    rw [hb, List.take_take]
  · exact ⟨n, hn, rfl⟩

/-- A frame that was being sent on port `p` in `s` has ended in `t`, with the complement of the CRC over at least its
header. -/
def PoisonedEnd (s t : State) (p : Port) : Prop :=
  ∀ r d unread h, (s.port p).transmitter = .sending r d unread → s.record r = .held h →
    ∃ n, 8 ≤ n ∧ (t.port p).lineOut =
      some (poisonedFrame ((h.header.encode (h.length - 8) ++ readStored h.cells s.mem 8 (h.length - 8)).take n))

theorem PoisonedEnd.congr {s s' t t' : State} {p : Port} (h : PoisonedEnd s t p)
    (hs : (s'.port p).transmitter = (s.port p).transmitter) (hr : ∀ r, s'.record r = s.record r) (hm : s'.mem = s.mem)
    (ht : (t'.port p).lineOut = (t.port p).lineOut) : PoisonedEnd s' t' p := by
  intro r d unread k h1 h2
  rw [hm, ht]
  exact h r d unread k (hs ▸ h1) (hr r ▸ h2)

theorem resetTransmitter_poisonedEnd (p : Port) (s : State) : PoisonedEnd s (s.resetTransmitter p) p := by
  intro r d unread h ht hr
  have hleast : 8 ≤ max 8 (leastSent (s.cellsRead r unread)) + Config.cutLength s.freeDraws %
      ((s.sendable r unread (s.sentBytes r)).length + 1 - max 8 (leastSent (s.cellsRead r unread))) := by omega
  obtain ⟨n, hn, he⟩ := sendable_take hr unread hleast
  refine ⟨n, hn, ?_⟩
  rw [← sentBytes_of_held hr, ← he]
  simp only [State.resetTransmitter, ht]
  simp only [State.setTransmitter, updPort_port_same]
  change ((s.setLineOut p _).port p).lineOut = _
  simp only [State.setLineOut, updPort_port_same]
  rfl

theorem resetPortTraffic_poisonedEnd (p : Port) (s : State) : PoisonedEnd s (s.resetPortTraffic p) p := by
  refine (resetTransmitter_poisonedEnd p s).congr rfl (fun _ => rfl) rfl ?_
  rw [State.resetPortTraffic, setAdmission_eq, setPort_port_same, resetReceiver_eq, setPort_port_same]

section
variable {s : State} {p q : Port}

theorem resetPortTraffic_port_of_ne (h : q ≠ p) : (s.resetPortTraffic p).port q = s.port q := by
  obtain ⟨o, n, hs⟩ := resetPortTraffic_shape p s
  rw [hs]
  exact setPort_port_of_ne _ s h

theorem resetPortTraffic_keeps_frames (p : Port) (s : State) :
    (∀ r, (s.resetPortTraffic p).record r = s.record r) ∧ (s.resetPortTraffic p).mem = s.mem := by
  obtain ⟨o, n, hs⟩ := resetPortTraffic_shape p s
  rw [hs]
  exact ⟨fun _ => rfl, rfl⟩

/-- A later port's reset leaves the end. -/
theorem PoisonedEnd.later {t : State} (h : PoisonedEnd s t p) (hne : p ≠ q) : PoisonedEnd s (t.resetPortTraffic q) p :=
  h.congr rfl (fun _ => rfl) rfl (by rw [resetPortTraffic_port_of_ne hne])

/-- An earlier port's reset leaves the frame. -/
theorem PoisonedEnd.earlier {t : State} (h : PoisonedEnd (s.resetPortTraffic q) t p) (hne : p ≠ q) :
    PoisonedEnd s t p :=
  h.congr (by rw [resetPortTraffic_port_of_ne hne]) (fun r => ((resetPortTraffic_keeps_frames q s).1 r).symm)
    (resetPortTraffic_keeps_frames q s).2.symm rfl

end

theorem resetFrames_poisonedEnd (s : State) (p : Port) : PoisonedEnd s s.resetFrames p := by
  have h : PoisonedEnd s (((s.resetPortTraffic .E).resetPortTraffic .W).resetPortTraffic .B) p := by
    cases p with
    | E => exact ((resetPortTraffic_poisonedEnd .E s).later (by decide)).later (by decide)
    | W => exact ((resetPortTraffic_poisonedEnd .W _).later (by decide)).earlier (by decide)
    | B => exact ((resetPortTraffic_poisonedEnd .B _).earlier (by decide)).earlier (by decide)
  have hp : s.resetFrames.ports = (((s.resetPortTraffic .E).resetPortTraffic .W).resetPortTraffic .B).ports := by
    simp only [State.resetFrames, State.dropEnded, State.emptyDeques, State.resetPool]
  exact h.congr rfl (fun _ => rfl) rfl (by rw [port_congr hp])

/-! ## RESET-TRAFFIC (R49, R166, R183) -/

theorem afterReset_receiver (y : PortState) (o : Option LineFrame) : (y.afterReset o).receiver =
    match y.receiver with | .receiving _ => .discarding | x => x := by
  rw [PortState.afterReset]
  cases y.receiver <;> rfl

theorem afterReset_fields {y z : PortState} {o : Option LineFrame} (h : z = y.afterReset o) :
    z.transmitter = .idle ∧ z.admission = .idle ∧
      z.receiver = (match y.receiver with | .receiving _ => .discarding | x => x) ∧ z.link = y.link ∧
      z.quietUntil = y.quietUntil ∧ z.signal = y.signal ∧ z.held = y.held ∧ z.lineWaits = y.lineWaits ∧
      z.markers = y.markers := by
  subst h
  exact ⟨rfl, rfl, afterReset_receiver y o, rfl, rfl, rfl, rfl, rfl, rfl⟩

/-- The exception unit after RESET-TRAFFIC: every record PENDING, no notice, the timer as it must be (R183). -/
def ExcUnit.afterTraffic (u : ExcUnit) (held : Bool) (now : Stamp) : ExcUnit :=
  { u.unnotify with
    building := none
    retry := if u.unnotify.pendingRecords ≠ [] ∧ held = true then some (u.retry.getD (now + retryInterval)) else none }

theorem resetTraffic_shape (s : State) :
    ∃ x n, s.resetTraffic = { s with
        ports := x, freeDraws := n, freeCells := allCells, freeRecords := allRecords,
        records := Vector.replicate 1024 .free, deques := s.deques.map (fun q => { q with entries := [] }),
        claim := s.claim.map (fun k => { k with replyMemory := none }),
        exc := s.exc.afterTraffic s.claim.isSome s.timebase,
        follow := s.follow.filter (fun c => !endedByReset c) } ∧
      x = s.resetFrames.ports ∧ ∀ p, ∃ o, x.get p = (s.port p).afterReset o := by
  obtain ⟨x, n, h, hx⟩ := resetFrames_shape s
  refine ⟨x, n, ?_, by rw [h], hx⟩
  rw [State.resetTraffic, h]
  unfold State.syncTimer
  dsimp only
  rw [Option.isSome_map]
  rfl

/-- Settles O43: the fields of the reset state, and the poisoned end of each port's frame. -/
theorem resetTraffic : Obligations.ResetTraffic := by
  unfold Obligations.ResetTraffic
  intro s j hd hj
  obtain ⟨x, n, h, hxf, hx⟩ := resetTraffic_shape (s.settle (.resetTraffic []))
  have hend : ∀ p, PoisonedEnd (s.settle (.resetTraffic [])) (s.settle (.resetTraffic [])).resetTraffic p := fun p =>
    (resetFrames_poisonedEnd (s.settle (.resetTraffic [])) p).congr rfl (fun _ => rfl) rfl
      (by rw [h]; exact congrArg (fun y : PerPort PortState => (y.get p).lineOut) hxf)
  refine ⟨_, exec_resetTraffic_of_due hd hj, ?_⟩
  rw [h] at hend ⊢
  dsimp only
  refine ⟨by rw [allCells], by rw [allRecords], fun r => ?record, fun d => ?deque, fun p => ?port, by simp only [settle_claim], fun i => unnotify_slot s.exc i,
    ?_, ?_, ?_, ?_, ?_, fun hk hp => ?runs, fun hk => ?stopped, ?attempt, ?placement,
    fun p r d unread k ht hr => hend p r d unread k ht hr, ?_, ?_, ?_, ?_, ?_, ?_, ?_⟩
  case record => simp [State.record]
  case deque => simp [State.deque]
  case port =>
    obtain ⟨o, ho⟩ := hx p
    exact afterReset_fields ho
  case runs =>
    refine (if_pos ⟨hp, hk⟩).trans (congrArg some ?_)
    change s.exc.retry.getD (s.timebase + retryInterval) = _
    cases s.exc.retry <;> rfl
  case stopped =>
    refine if_neg fun hr => ?_
    rcases hk with hk | hk
    · have hsome : s.claim.isSome = true := hr.2
      rw [hk] at hsome
      cases hsome
    · exact hr.1 hk
  case attempt => simp [endedByReset]
  case placement => simp [endedByReset]
  all_goals rfl

end Sys2Proof.Machine
end

section
/-! SUPPORT. The family of RESET-FULL. -/

namespace Sys2Proof.Machine

open Sys2Proof

theorem resetPortFull_lineOut (p q : Port) (s : State) :
    ((s.resetPortFull p).port q).lineOut = (s.port q).lineOut := by
  rw [State.resetPortFull]
  by_cases h : q = p
  · subst h
    rw [updPort_port_same]
  · rw [updPort_port_of_ne _ _ h]

theorem resetFull_lineOut (p : Port) (s : State) :
    (s.resetFull.port p).lineOut = (s.resetFrames.port p).lineOut := by
  have h : s.resetFull.ports = (((s.resetFrames.resetPortFull .E).resetPortFull .W).resetPortFull .B).ports := by
    simp only [State.resetFull]
  rw [port_congr h, resetPortFull_lineOut, resetPortFull_lineOut, resetPortFull_lineOut]

/-- What a full reset leaves of a port (R85, R108). -/
theorem afterFullReset_fields {y z : PortState} {o : Option LineFrame}
    (h : z = { y.afterReset o with held := false, markers := Vector.replicate 8 27 }) :
    z.transmitter = .idle ∧ z.admission = .idle ∧
      z.receiver = (match y.receiver with | .receiving _ => .discarding | x => x) ∧ z.link = y.link ∧
      z.quietUntil = y.quietUntil ∧ z.signal = y.signal ∧ z.held = false ∧ z.lineWaits = y.lineWaits ∧
      ∀ v : Fin 8, z.markers[v] = 27 := by
  subst h
  exact ⟨rfl, rfl, afterReset_receiver y o, rfl, rfl, rfl, rfl, rfl, fun v => by simp⟩

/-- Settles O44: the fields of the reset state, and the poisoned end of each port's frame. -/
theorem resetFull : Obligations.ResetFull := by
  unfold Obligations.ResetFull
  intro s j hd hj
  obtain ⟨x, n, h, hx⟩ := resetFull_shape (s.settle (.resetFull []))
  have hend : ∀ p, PoisonedEnd (s.settle (.resetFull [])) (s.settle (.resetFull [])).resetFull p := fun p =>
    (resetFrames_poisonedEnd (s.settle (.resetFull [])) p).congr rfl (fun _ => rfl) rfl (resetFull_lineOut p _)
  refine ⟨_, exec_resetFull_of_due hd hj, ?_⟩
  rw [h] at hend ⊢
  dsimp only
  refine ⟨?_, ?_, ?_, ?_, ?_, ?_, ?_, ?_, ?_, fun p => ?port,
    fun p r d unread k ht hr => hend p r d unread k ht hr, ?_, ?_⟩
  case port =>
    obtain ⟨o, ho⟩ := hx p
    exact afterFullReset_fields ho
  all_goals simp only [State.reset, settle_timebase, settle_station]

end Sys2Proof.Machine
end

section
/-! SUPPORT. The families of the record sequence and of the slot choice. -/

namespace Sys2Proof.Machine

open Sys2Proof

/-! ## What a creation writes (R172, R173) -/

section
variable {u : ExcUnit} {q : Request} {now : Stamp}

/-- The unit without the record that holds the counter's sequence. -/
def ExcUnit.cleared (u : ExcUnit) : ExcUnit := u.retain (·.seq ≠ u.counter)

theorem create_slot (u : ExcUnit) (q : Request) (now : Stamp) (k : SlotNo) : (u.create q now).slot k =
    if k = u.cleared.chooseSlot then some (q.toRecord u.counter now) else u.cleared.slot k :=
  setSlot_slot u.cleared _ k _

theorem create_creation (u : ExcUnit) (q : Request) (now : Stamp) :
    (u.create q now).creation = u.cleared.creation.erase u.cleared.chooseSlot ++ [u.cleared.chooseSlot] := rfl

theorem create_retry (u : ExcUnit) (q : Request) (now : Stamp) : (u.create q now).retry = u.retry := rfl

/-- A created record is PENDING. -/
theorem create_pendingRecords (u : ExcUnit) (q : Request) (now : Stamp) : (u.create q now).pendingRecords ≠ [] := by
  refine List.ne_nil_of_mem (a := q.toRecord u.counter now) (List.mem_filter.mpr ⟨?_, by simp [Request.toRecord]⟩)
  refine List.mem_filterMap.mpr ⟨u.cleared.chooseSlot, ?_, ?_⟩
  · rw [create_creation]
    simp
  · rw [create_slot, if_pos rfl]

end

/-! ## The sequence of a record (R173, R179) -/

section
variable {s : State} {q : Request}

theorem request_state (h : s.exc.mask.allows q.code.cls = true) :
    (s.request q).2 = if q.code = .noticeUndelivered then State.syncTimer { s with exc := s.exc.create q s.timebase }
      else (State.syncTimer { s with exc := s.exc.create q s.timebase }).raise .noticeDeliveryAttempt := by
  rw [request_of_allowed h]

theorem request_exc_of_allowed (h : s.exc.mask.allows q.code.cls = true) :
    (s.request q).2.exc = (State.syncTimer { s with exc := s.exc.create q s.timebase }).exc := by
  rw [request_state h]
  split <;> rfl

end

/-- A body that leaves the counter. -/
def Body.keepsCounter (body : Body) : Prop := ∀ j s, (body j s).2.exc.counter = s.exc.counter

theorem badLength_keepsCounter : Body.keepsCounter badLength := fun _ _ => rfl

theorem holderOnly_keepsCounter {body : Body} (h : body.keepsCounter) : (holderOnly body).keepsCounter := by
  intro j s
  unfold holderOnly notBroadcast
  split
  · rfl
  · dsimp only
    split
    · exact h j s
    · rfl

theorem runBody_counter (j : Job) (code : Byte) {body : Body} (h : body.keepsCounter) (s : State) :
    (s.runBody j code body).exc.counter = s.exc.counter := by
  have hb := h j s
  unfold State.runBody
  split
  · rename_i hx
    rw [hx] at hb
    rw [conclude_exc]
    exact hb
  · rename_i hx
    rw [hx] at hb
    rw [conclude_exc]
    exact hb
  · rename_i hx
    rw [hx] at hb
    exact hb

theorem dealOrder_counter (o : Order) (greatest : Nat) {body : Body} (h : body.keepsCounter) (s : State) :
    (s.dealOrder o greatest body).exc.counter = s.exc.counter := by
  unfold State.dealOrder
  dsimp only
  split
  · split
    · unfold State.deal
      split
      · rw [conclude_exc]; rfl
      · rw [conclude_exc]; rfl
      · rw [conclude_exc]; rfl
      · split
        · rw [conclude_exc]; rfl
        · exact runBody_counter _ _ h _
    · rfl
  · rfl

theorem ackExceptionsBody_keepsCounter (ops : List Byte) : (ackExceptionsBody ops).keepsCounter := by
  unfold ackExceptionsBody
  split
  · exact holderOnly_keepsCounter fun _ _ => rfl
  · exact badLength_keepsCounter

theorem readExceptionsBody_keepsCounter (ops : List Byte) : (readExceptionsBody ops).keepsCounter := by
  unfold readExceptionsBody
  split
  · exact fun _ _ => rfl
  · exact badLength_keepsCounter

/-- Settles O45: by what a creation writes; and both orders leave the counter. -/
theorem recordSequence : Obligations.RecordSequence := by
  unfold Obligations.RecordSequence
  refine ⟨fun s q h => ?created, fun s q h => ⟨?owed, ?timer⟩, fun s q h => ?dropped, fun s t ops h => ?acknowledged,
    fun s t ops h => ?read⟩
  case created =>
    rw [request_exc_of_allowed h]
    refine ⟨by rw [request_of_allowed h], rfl, s.exc.cleared.chooseSlot, ?_, ?_⟩
    · exact (create_slot s.exc q s.timebase _).trans (if_pos rfl)
    · exact (congrArg List.getLast? (create_creation s.exc q s.timebase)).trans List.getLast?_concat
  case owed =>
    rw [request_state h]
    split <;> rfl
  case timer =>
    have hp := create_pendingRecords s.exc q s.timebase
    rw [request_exc_of_allowed h]
    unfold State.syncTimer
    dsimp only
    rw [create_retry]
    cases hk : s.claim with
    | none => simp
    | some k =>
      rw [if_pos ⟨hp, rfl⟩]
      cases s.exc.retry <;> rfl
  case dropped =>
    rw [State.request, h]
    rfl
  case acknowledged =>
    cases h
    exact dealOrder_counter _ _ (ackExceptionsBody_keepsCounter ops) s
  case read =>
    cases h
    exact dealOrder_counter _ _ (readExceptionsBody_keepsCounter ops) s

/-! ## The slot of a new record (R172) -/

section
variable {u : ExcUnit} {i : SlotNo}

theorem chooseSlot_of_free (hi : u.slot i = none) (hk : ∀ k, k < i → u.slot k ≠ none) : u.chooseSlot = i := by
  have hf : (List.finRange 16).find? (fun i => (u.slot i).isNone) = some i := by
    rw [List.find?_eq_some_iff_getElem]
    refine ⟨by rw [hi]; rfl, i.val, by simp, by simp, fun m hlt => ?_⟩
    have hm := hk ⟨m, by omega⟩ hlt
    simpa using Option.isSome_iff_ne_none.mpr hm
  unfold ExcUnit.chooseSlot
  rw [hf]

theorem find_free_eq_none (hn : ∀ k, u.slot k ≠ none) : (List.finRange 16).find? (fun i => (u.slot i).isNone) = none := by
  rw [List.find?_eq_none]
  exact fun k _ h => hn k (Option.isNone_iff_eq_none.mp h)

theorem chooseSlot_of_notified {older newer : List SlotNo} {r : ExceptionRecord} (hn : ∀ k, u.slot k ≠ none)
    (hc : u.creation = older ++ i :: newer) (hr : u.slot i = some r) (hm : r.mark = .notified)
    (ho : ∀ k ∈ older, ∀ x, u.slot k = some x → x.mark = .pending) : u.chooseSlot = i := by
  have hf : u.creation.find? (fun i => (u.slot i).any (·.mark = .notified)) = some i := by
    rw [List.find?_eq_some_iff_append]
    refine ⟨by simp [hr, hm], older, newer, hc, fun k hk => ?_⟩
    cases hx : u.slot k with
    | none => rfl
    | some x => simp [ho k hk x hx]
  unfold ExcUnit.chooseSlot
  rw [find_free_eq_none hn]
  dsimp only
  rw [hf]

theorem chooseSlot_of_oldest {newer : List SlotNo} (hn : ∀ k, u.slot k ≠ none) (hc : u.creation = i :: newer)
    (hp : ∀ k r, u.slot k = some r → r.mark = .pending) : u.chooseSlot = i := by
  have hf : u.creation.find? (fun i => (u.slot i).any (·.mark = .notified)) = none := by
    rw [List.find?_eq_none]
    intro k _ h
    cases hx : u.slot k with
    | none => exact hn k hx
    | some x =>
      rw [hx] at h
      simp [hp k x hx] at h
  unfold ExcUnit.chooseSlot
  rw [find_free_eq_none hn]
  dsimp only
  rw [hf, hc]
  rfl

theorem cleared_slot (u : ExcUnit) (k : SlotNo) : u.cleared.slot k = (u.slot k).filter (fun r => r.seq ≠ u.counter) :=
  retain_slot u _ k

/-- With no record that holds the counter's sequence, nothing is freed. -/
theorem cleared_of_none (hc : ∀ i ∈ u.creation, (u.slot i).isSome = true)
    (hs : ∀ i r, u.slot i = some r → r.seq ≠ u.counter) : (∀ k, u.cleared.slot k = u.slot k) ∧
      u.cleared.creation = u.creation := by
  refine ⟨fun k => ?_, ?_⟩
  · rw [cleared_slot]
    cases h : u.slot k with
    | none => rfl
    | some r => simp [hs k r h]
  · refine List.filter_eq_self.mpr fun i hi => ?_
    obtain ⟨r, hr⟩ := Option.isSome_iff_exists.mp (hc i hi)
    simp [hr, hs i r hr]

end

/-- The record that holds the counter's sequence is freed first, and its slot leaves the creation list. -/
theorem cleared_of_one {u : ExcUnit} {j : SlotNo} {old : ExceptionRecord}
    (hc : ∀ i ∈ u.creation, (u.slot i).isSome = true) (hj : u.slot j = some old) (ho : old.seq = u.counter)
    (hs : ∀ i r, i ≠ j → u.slot i = some r → r.seq ≠ u.counter) :
    (∀ k, u.cleared.slot k = if k = j then none else u.slot k) ∧
      u.cleared.creation = u.creation.filter (fun k => decide (k ≠ j)) := by
  refine ⟨fun k => ?_, List.filter_congr fun i hi => ?_⟩
  · rw [cleared_slot]
    by_cases hk : k = j
    · subst hk
      simp [hj, ho]
    · rw [if_neg hk]
      cases h : u.slot k with
      | none => rfl
      | some r => simp [hs k r hk h]
  · obtain ⟨r, hr⟩ := Option.isSome_iff_exists.mp (hc i hi)
    by_cases hk : i = j
    · subst hk
      rw [hj] at hr
      cases hr
      simp [hj, ho]
    · simp [hr, hs i r hk hr, hk]

/-- Settles O46: by the slots that the clearing of the counter's sequence leaves. -/
theorem slotChoice : Obligations.SlotChoice := by
  unfold Obligations.SlotChoice
  intro u q now hc
  dsimp only
  refine ⟨fun hs => ?kept, fun j old hj ho hs i hi hlow => ?freed⟩
  case kept =>
    obtain ⟨hslot, hcreation⟩ := cleared_of_none hc hs
    have hwritten (i : SlotNo) (hi : u.cleared.chooseSlot = i) :
        (u.create q now).slot i = some (q.toRecord u.counter now) ∧
          (∀ k, k ≠ i → (u.create q now).slot k = u.slot k) ∧ (u.create q now).creation = u.creation.erase i ++ [i] := by
      refine ⟨?_, fun k hk => ?_, ?_⟩
      · rw [create_slot, hi, if_pos rfl]
      · rw [create_slot, hi, if_neg hk, hslot]
      · rw [create_creation, hi, hcreation]
    refine ⟨fun i hi hlow => hwritten i ?_, fun hfull older i newer r hcr hr hm hold => hwritten i ?_,
      fun hp hfull i newer hcr => hwritten i ?_⟩
    · exact chooseSlot_of_free ((hslot i).trans hi) fun k hk => by rw [hslot]; exact hlow k hk
    · exact chooseSlot_of_notified (fun k => by rw [hslot]; exact hfull k) (hcreation.trans hcr) ((hslot i).trans hr) hm
        fun k hk x hx => hold k hk x ((hslot k).symm.trans hx)
    · exact chooseSlot_of_oldest (fun k => by rw [hslot]; exact hfull k) (hcreation.trans hcr)
        fun k r hr => hp k r ((hslot k).symm.trans hr)
  case freed =>
    obtain ⟨hslot, hcreation⟩ := cleared_of_one hc hj ho hs
    have hfree : u.cleared.slot i = none := by
      rw [hslot]
      rcases hi with hi | hi
      · rw [if_pos hi]
      · rw [hi, ite_self]
    have hchoice : u.cleared.chooseSlot = i := chooseSlot_of_free hfree fun k hk => by
      rw [hslot, if_neg (hlow k hk).1]
      exact (hlow k hk).2
    have hnot : i ∉ u.creation.filter (fun k => decide (k ≠ j)) := fun hmem => by
      obtain ⟨hmem, hne⟩ := List.mem_filter.mp hmem
      rcases hi with hi | hi
      · exact of_decide_eq_true hne hi
      · have := hc i hmem
        rw [hi] at this
        cases this
    refine ⟨?_, fun k hk => ?_, ?_⟩
    · rw [create_slot, hchoice, if_pos rfl]
    · rw [create_slot, hchoice, if_neg hk, hslot]
    · rw [create_creation, hchoice, hcreation, List.erase_of_not_mem hnot]

end Sys2Proof.Machine
end

section
/-! SUPPORT. The families of the notices: delivery and placement. -/

namespace Sys2Proof.Machine

open Sys2Proof

/-! ## A delivery attempt (R175, R176, R178) -/

section
variable {s : State} {k : Claim}

theorem exec_noticeDeliveryAttempt_of_due (h : .noticeDeliveryAttempt ∈ s.follow) :
    exec .noticeDeliveryAttempt s = .next (s.settle .noticeDeliveryAttempt).deliveryAttempt :=
  congrArg Host.Outcome.next (if_pos h)

theorem exec_noticeDeliveryAttempt_of_not_due (h : .noticeDeliveryAttempt ∉ s.follow) :
    exec .noticeDeliveryAttempt s = .next s :=
  congrArg Host.Outcome.next (if_neg h)

theorem deliveryAttempt_of_conditions (hn : s.exc.notices = true) (hk : s.claim = some k)
    (hp : s.exc.pendingRecords ≠ []) (hb : s.exc.building = none) : s.deliveryAttempt = s.deliver k := by
  unfold State.deliveryAttempt
  rw [hk, hb]
  exact if_pos (by simp [hn, hp])

theorem deliveryAttempt_of_not_conditions
    (h : s.exc.notices = false ∨ s.claim = none ∨ s.exc.pendingRecords = [] ∨ s.exc.building ≠ none) :
    s.deliveryAttempt = s := by
  unfold State.deliveryAttempt
  split
  · rename_i hk hb
    refine if_neg fun hc => ?_
    rw [Bool.and_eq_true, bne_iff_ne] at hc
    rcases h with h | h | h | h
    · exact Bool.false_ne_true (h.symm.trans hc.1)
    · rw [hk] at h
      cases h
    · exact hc.2 h
    · exact h hb
  · rfl

/-- A notice takes one cell (R176). -/
theorem noticePayload_one_cell {rs : List ExceptionRecord} (h : rs.length ≤ 4) :
    cellsFor (8 + (noticePayload rs).length) = 1 := by
  rw [noticePayload, List.length_cons, records_bytes_length, cellsFor]
  omega

theorem deliver_of_granted {r : RecordNo} {t : State}
    (hb : s.build (noticeHeader k.holder s.station (((s.exc.pendingRecords.take 4).map (·.seq)).headD 0))
      (noticePayload (s.exc.pendingRecords.take 4)) = some (r, t)) :
    s.deliver k = State.raise .noticePlacement { t with exc := { t.exc with
      building := some ⟨r, k.holder, (s.exc.pendingRecords.take 4).map (·.seq)⟩ } } := by
  simp only [State.deliver, noticeRecords, hb]

theorem deliver_of_refused
    (hb : s.build (noticeHeader k.holder s.station (((s.exc.pendingRecords.take 4).map (·.seq)).headD 0))
      (noticePayload (s.exc.pendingRecords.take 4)) = none) :
    s.deliver k = s.noticeUndelivered k.port ((s.exc.pendingRecords.take 4).map (·.seq)) := by
  simp only [State.deliver, noticeRecords, hb]

theorem head?_take_map (rs : List ExceptionRecord) : ((rs.take 4).map (·.seq)).head? = rs.head?.map (·.seq) := by
  cases rs <;> rfl

end

/-- Settles O47: the conditions of an attempt, then its build, granted or refused. -/
theorem noticeDelivery : Obligations.NoticeDelivery := by
  unfold Obligations.NoticeDelivery
  refine ⟨fun s k r records c cells hf hn hk hp hb hr hc => ?built, fun s h => ?idle,
    fun s h => exec_noticeDeliveryAttempt_of_not_due h, fun s k hf hn hk hp hb hno => ?refused⟩
  case built =>
    have hone := noticePayload_one_cell (rs := s.exc.pendingRecords.take 4) (List.length_take_le ..)
    have hbuild := build_of_granted (s := s.settle .noticeDeliveryAttempt)
      (h := noticeHeader k.holder s.station (((s.exc.pendingRecords.take 4).map (·.seq)).headD 0))
      (payload := noticePayload (s.exc.pendingRecords.take 4)) hr (by
        rw [hone, settle_freeCells, hc]
        exact Nat.le_add_left 1 _)
    rw [hone, settle_freeCells, hc] at hbuild
    rw [exec_noticeDeliveryAttempt_of_due hf,
      deliveryAttempt_of_conditions (s := s.settle .noticeDeliveryAttempt) hn hk hp hb, deliver_of_granted hbuild]
    rfl
  case idle =>
    by_cases hf : .noticeDeliveryAttempt ∈ s.follow
    · rw [exec_noticeDeliveryAttempt_of_due hf,
        deliveryAttempt_of_not_conditions (s := s.settle .noticeDeliveryAttempt) h]
    · rw [exec_noticeDeliveryAttempt_of_not_due hf, State.settle, List.erase_of_not_mem hf]
  case refused =>
    have hone := noticePayload_one_cell (rs := s.exc.pendingRecords.take 4) (List.length_take_le ..)
    have hbuild := build_of_refused (s := s.settle .noticeDeliveryAttempt)
      (h := noticeHeader k.holder s.station (((s.exc.pendingRecords.take 4).map (·.seq)).headD 0))
      (payload := noticePayload (s.exc.pendingRecords.take 4)) (hno.imp id fun hc => by
        rw [hone, settle_freeCells, hc]
        exact Nat.one_pos)
    rw [exec_noticeDeliveryAttempt_of_due hf,
      deliveryAttempt_of_conditions (s := s.settle .noticeDeliveryAttempt) hn hk hp hb, deliver_of_refused hbuild,
      State.noticeUndelivered, head?_take_map]
    rfl

end Sys2Proof.Machine
end

section
/-! SUPPORT. The family of the notice placement. -/

namespace Sys2Proof.Machine

open Sys2Proof

section
variable {s : State} {n : Building} {k : Claim} {h : HeldFrame}

/-! ## The event (R177) -/

theorem exec_noticePlacement_of_building (hb : s.exc.building = some n) :
    exec .noticePlacement s = .next ((s.settle .noticePlacement).placeNotice n) := by
  have hb' : (s.settle .noticePlacement).exc.building = some n := hb
  change Host.Outcome.next (match (s.settle .noticePlacement).exc.building with
    | some n => (s.settle .noticePlacement).placeNotice n
    | none => s.settle .noticePlacement) = _
  rw [hb']

theorem placeNotice_of_holder (hk : s.claim = some k) (hh : k.holder = n.dest) : s.placeNotice n = s.placeFor k n := by
  unfold State.placeNotice
  rw [hk]
  exact if_pos hh

theorem placeNotice_of_other (hk : ∀ k, s.claim = some k → k.holder ≠ n.dest) :
    s.placeNotice n = (s.dropNotice n.record).attemptAgain := by
  unfold State.placeNotice
  cases hc : s.claim with
  | none => rfl
  | some k => exact if_neg (hk k hc)

/-- The unit's reference is the last one. -/
theorem dropNotice_of_last {r : RecordNo} (hr : s.record r = .held h) (hc : h.count = 1) :
    s.dropNotice r = { s with exc := { s.exc with building := none } }.freeFrame r h.cells :=
  release_of_last (s := { s with exc := { s.exc with building := none } }) hr (Nat.le_of_eq hc)

/-! ## The accepted placement (R177, R179) -/

/-- The exception unit after an accepted placement. -/
def ExcUnit.afterNotice (u : ExcUnit) (seqs : List Byte) (held : Bool) (now : Stamp) : ExcUnit :=
  { u.notify seqs with
    building := none
    retry := if (u.notify seqs).pendingRecords ≠ [] ∧ held = true then some (u.retry.getD (now + retryInterval))
      else none }

/-- The commands that follow an arrival at a control deque. -/
def offered (q : Deque) (p : Port) : List Instr := if q.entries = [] then [.takeAttempt p] else []

/-- An arrival at an ACTIVE deque with room, and the take attempt that it owes. -/
theorem arrive_offered {d : DequeNo} {r : RecordNo} {e : Insertion} (hr : s.record r = .held h)
    (ha : (s.deque d).state = .active) (hm : r ∉ (s.deque d).entries)
    (hl : (s.deque d).entries.length < (s.deque d).config.limit.toNat) :
    ∃ w, (∀ p, (s.deque d).config.binding = .port p → w = s.follow ++ offered (s.deque d) p) ∧ s.arrive d r e =
      (.accepted, { (s.setDeque d { s.deque d with entries := place e r (s.deque d).entries }).setRecord r
        (.held { h with count := h.count + 1 }) with follow := w }) := by
  have hr' : (s.setDeque d { s.deque d with entries := place e r (s.deque d).entries }).record r = .held h := hr
  have hq : ((s.setDeque d { s.deque d with entries := place e r (s.deque d).entries }).setRecord r
      (.held { h with count := h.count + 1 })).deque d = { s.deque d with entries := place e r (s.deque d).entries } :=
    setDeque_deque_same ..
  rw [arrive_of_room (.inl ha) hm hl, addRef_of_held hr']
  dsimp only
  by_cases he : (s.deque d).entries = []
  · rw [if_pos he, offer_of_state, hq]
    dsimp only
    rw [if_pos ha]
    cases hb : (s.deque d).config.binding with
    | port p =>
      refine ⟨s.follow ++ [.takeAttempt p], fun q hp => ?_, rfl⟩
      cases hp
      rw [offered, if_pos he]
    | mgmt => exact ⟨_, fun q hp => (nomatch hp), rfl⟩
    | unbound => exact ⟨s.follow, fun q hp => (nomatch hp), rfl⟩
  · rw [if_neg he]
    exact ⟨s.follow, fun p _ => by rw [offered, if_neg he, List.append_nil], rfl⟩

/-- The unit lets go of a notice that a deque holds, and its records are NOTIFIED. -/
theorem dropNotice_of_notified (x : State) {r : RecordNo} {seqs : List Byte} {w : List Instr} (hc : h.count = 1) :
    State.dropNotice r (State.notify seqs { x.setRecord r (.held { h with count := h.count + 1 }) with follow := w }) =
      { x.setRecord r (.held h) with
        exc := x.exc.afterNotice seqs x.claim.isSome x.timebase
        follow := w } := by
  have hr (u : ExcUnit) : State.record { x.setRecord r (.held { h with count := h.count + 1 }) with
      exc := u, follow := w } r = .held { h with count := h.count + 1 } := setRecord_record_same _ _ x
  have hone : 1 < h.count + 1 := by omega
  refine (release_of_shared (hr (x.exc.afterNotice seqs x.claim.isSome x.timebase)) hone).trans ?_
  simp only [State.setRecord, Vector.set_set, Nat.add_sub_cancel]

theorem placeFor_of_room (hr : s.record n.record = .held h) (hc : h.count = 1)
    (ha : (s.deque (controlDeque k.port)).state = .active) (hm : n.record ∉ (s.deque (controlDeque k.port)).entries)
    (hl : (s.deque (controlDeque k.port)).entries.length < (s.deque (controlDeque k.port)).config.limit.toNat) :
    ∃ w, (∀ p, (s.deque (controlDeque k.port)).config.binding = .port p →
        w = s.follow ++ offered (s.deque (controlDeque k.port)) p) ∧
      s.placeFor k n = State.attemptAgain { (s.setDeque (controlDeque k.port) { s.deque (controlDeque k.port) with
          entries := (s.deque (controlDeque k.port)).entries ++ [n.record] }).setRecord n.record (.held h) with
        exc := s.exc.afterNotice n.seqs s.claim.isSome s.timebase
        follow := w } := by
  obtain ⟨w, hw, hx⟩ := arrive_offered (e := .tail) hr ha hm hl
  refine ⟨w, hw, ?_⟩
  unfold State.placeFor
  rw [hx]
  dsimp only
  refine congrArg State.attemptAgain ?_
  exact dropNotice_of_notified (s.setDeque (controlDeque k.port) { s.deque (controlDeque k.port) with
    entries := (s.deque (controlDeque k.port)).entries ++ [n.record] }) hc

/-! ## The refused placement (R178) -/

theorem placeFor_of_full (ha : (s.deque (controlDeque k.port)).state = .active)
    (hm : n.record ∉ (s.deque (controlDeque k.port)).entries)
    (hp : (s.deque (controlDeque k.port)).config.policy = .refuse)
    (hl : (s.deque (controlDeque k.port)).config.limit.toNat ≤ (s.deque (controlDeque k.port)).entries.length) :
    s.placeFor k n = (s.dropNotice n.record).noticeUndelivered k.port n.seqs := by
  unfold State.placeFor
  rw [arrive_of_full_refuse (.inl ha) hm hl hp]

end

/-! ## What a further attempt leaves (R177) -/

theorem attemptAgain_deque (s : State) (d : DequeNo) : s.attemptAgain.deque d = s.deque d := by
  rw [State.deque, attemptAgain_deques]
  rfl

theorem attemptAgain_record (s : State) (r : RecordNo) : s.attemptAgain.record r = s.record r := by
  rw [State.record, attemptAgain_records]
  rfl

theorem attemptAgain_follow (s : State) : s.attemptAgain.follow =
    s.follow ++ (if s.exc.pendingRecords = [] then [] else [.noticeDeliveryAttempt]) := by
  unfold State.attemptAgain
  split
  · exact (List.append_nil _).symm
  · rfl

/-- Settles O48: by the arrival at the control deque, or with the notice set aside. -/
theorem noticePlacement : Obligations.NoticePlacement := by
  unfold Obligations.NoticePlacement
  refine ⟨fun s n k h hb hk hh hr hc ha hm hl => ?accepted, fun s n k h hb hk hh hr hc ha hm hp hl => ?full,
    fun s n h hb hk hr hc => ?aside⟩
  case accepted =>
    obtain ⟨w, hw, hx⟩ := placeFor_of_room (s := s.settle .noticePlacement) (k := k) hr hc ha hm hl
    have hplace : (s.settle .noticePlacement).placeNotice n = _ :=
      (placeNotice_of_holder (s := s.settle .noticePlacement) hk hh).trans hx
    refine ⟨(s.settle .noticePlacement).placeNotice n, exec_noticePlacement_of_building hb, ?_, fun d hd => ?_, ?_, ?_, ?_,
      ?_, fun i => ?_, fun hp => ?_, fun hbind => ?_, by simp, by simp [SameElsewhere]⟩
    · rw [hplace, attemptAgain_deque]
      exact congrArg Deque.entries (setDeque_deque_same ..)
    · rw [hplace, attemptAgain_deque]
      exact setDeque_deque_of_ne (s := s.settle .noticePlacement) _ hd
    · rw [hplace, attemptAgain_record]
      exact setRecord_record_same ..
    · rw [hplace, attemptAgain_exc]
      rfl
    · rw [hplace, attemptAgain_exc]
      rfl
    · rw [hplace, attemptAgain_exc]
      rfl
    · rw [hplace, attemptAgain_exc]
      exact notify_slot s.exc n.seqs i
    · rw [hplace, attemptAgain_exc] at hp ⊢
      exact if_neg fun hr => hr.1 hp
    · rw [hplace, attemptAgain_follow, attemptAgain_exc]
      exact congrArg (· ++ _) (hw k.port hbind)
  case full =>
    dsimp only
    rw [exec_noticePlacement_of_building hb, placeNotice_of_holder (s := s.settle .noticePlacement) hk hh,
      placeFor_of_full (s := s.settle .noticePlacement) ha hm hp hl,
      dropNotice_of_last (s := s.settle .noticePlacement) hr hc]
    rfl
  case aside =>
    dsimp only
    rw [exec_noticePlacement_of_building hb, placeNotice_of_other (s := s.settle .noticePlacement) hk,
      dropNotice_of_last (s := s.settle .noticePlacement) hr hc]
    rfl

end Sys2Proof.Machine
end
